-- ==== Sys2Proof/Word.lean ====
section
/-! DEFINITION. The two word types of RSQR: a byte (a GF(256) element or a codeword) and a 32-bit word (a
register value or a command), 00_scope.md R7 and 20_memory.md R83. -/

namespace Sys2Proof

/-- A byte 0–255: a GF element (R51) or a codeword (R52). -/
abbrev Byte := BitVec 8

/-- A 32-bit unsigned word: a register value (R83) or a command word (R110). -/
abbrev Word := BitVec 32

end Sys2Proof
end

