-- ==== Sys2Proof/Config.lean ====
section
/-! DEFINITION. The parameters of 00_scope.md R6: the fixed sizes, and the build-time configuration a block carries.
A configuration is plain data that every State holds and no step changes, so a claim about every state is a claim about
every build (assumption log 1). `LAT` is no number here: the order of events is the state's input list (log 3). -/

namespace Sys2Proof

/-- `NPOLY`, the number of polynomial buffers (R6). -/
abbrev NPOLY : Nat := 4

/-- `PMAX`, the most coefficients a polynomial buffer holds (R6). -/
abbrev PMAX : Nat := 256

/-- `CWMAX`, the codeword buffer's capacity in bytes (R6). -/
abbrev CWMAX : Nat := 4096

/-- `TEST_DARK_MODULE` (R6): the dark-module cell a test-mode build writes. -/
inductive TestDarkModule where
  | dark
  | light
  deriving DecidableEq, Repr

/-- `TEST_VERSION_INFO` (R6): the version-information word a test-mode build writes. -/
inductive TestVersionInfo where
  | real
  | zero
  deriving DecidableEq, Repr

/-- What is fixed when a block is built and placed (R6): the bus address of its window and the two test-mode settings. -/
structure Config where
  /-- `BASE`, the bus address of the register window; a multiple of 64 (R80). -/
  base : Nat
  testDarkModule : TestDarkModule
  testVersionInfo : TestVersionInfo
  deriving DecidableEq, Repr

/-- The default build of R6 (`DARK`, `REAL`). DESIGN CHOICE: the spec leaves `BASE` open, and this names 0 (log 2). -/
def Config.default : Config :=
  { base := 0, testDarkModule := .dark, testVersionInfo := .real }

end Sys2Proof
end

