-- ==== Sys2Proof/Machine/State.lean ====
section
/-! DEFINITION. The state of RSQR as 10_state.md R30 lists it, the inputs of the outside world as plain data, and the state
after reset (R58). Views that the spec defines as functions of the state (BUSY, COMPLETE, MINFO, CWLEN, ID, PARAM, irq)
are in Flags and Bus. -/

namespace Sys2Proof.Machine

/-- A matrix cell: "tri-state cells (unset / light / dark) during construction" (R53). -/
inductive Cell where
  | unset
  | light
  | dark
  deriving DecidableEq, Repr

/-- A matrix, a list of rows from the top, each a list of cells from the left (R86). -/
abbrev Grid := List (List Cell)

/-- The four polynomial buffers `P[0..3]` (R51), each the raw list of its coefficients, index 0 first. -/
structure PolyBuffers where
  p0 : List Byte
  p1 : List Byte
  p2 : List Byte
  p3 : List Byte
  deriving DecidableEq, Repr

/-- The command faults of 60_exceptions.md R340. -/
inductive FaultCode where
  | illegal
  | badBuf
  | badVersion
  | noMatrix
  | incomplete
  | empty
  | range
  | overflow
  | domain
  deriving DecidableEq, Repr

/-- A check or a computation of a command: a value, or `raise Fault(CODE)` (R9, R143). -/
abbrev Check (α : Type) := Except FaultCode α

/-- One host bus access (20_memory.md R82), its width in bits. -/
inductive Access where
  | read (addr width : Nat)
  | write (addr width : Nat) (data : Word)
  deriving DecidableEq, Repr

/-- One event of the agents of 00_scope.md R5, in the order they happen. -/
inductive Input where
  /-- The host performs an access. -/
  | access (a : Access)
  /-- The engine starts to execute the pending command, if there is one (R141); a later `engine` completes it. -/
  | start
  /-- The engine's turn: its latency has passed, and it completes the pending command if there is one (R141, R394). A command
  that no `start` came before starts and completes at once. -/
  | engine
  /-- The reset input is asserted or released (R380). -/
  | resetPin (asserted : Bool)
  deriving DecidableEq, Repr

/-- The whole state (R30). The fields after `mat` are the model's own: the start of execution, the build's
constants, and the surroundings. -/
structure State where
  /-- STATUS.DONE (R37). -/
  done : Bool
  /-- STATUS.ERR (R38). -/
  err : Bool
  /-- STATUS.OVR (R39). -/
  ovr : Bool
  /-- STATUS.ERRCODE (R40). -/
  errcode : BitVec 4
  /-- RESULT (R41). -/
  result : Word
  /-- CTRL.IE (R42). -/
  ie : Bool
  /-- CTRL.BORDER (R42). -/
  border : BitVec 8
  /-- ERRCMD (R43). -/
  errcmd : Word
  /-- PENT (R48). -/
  pent : Word
  /-- PEN1 (R48). -/
  pen1 : Word
  /-- PEN2 (R48). -/
  pen2 : Word
  /-- PEN3 (R48). -/
  pen3 : Word
  /-- PEN4 (R48). -/
  pen4 : Word
  /-- The pending-command slot (R50); STATUS.BUSY is 1 exactly when it holds a command (R36). -/
  pending : Option Word
  /-- The polynomial buffers (R51). -/
  polys : PolyBuffers
  /-- The codeword buffer `CW` (R52). -/
  cw : List Byte
  /-- MVALID (R53). -/
  mvalid : Bool
  /-- VER (R53). -/
  ver : Nat
  /-- SIZE (R53). -/
  size : Nat
  /-- MAT (R53). -/
  mat : Grid
  /-- The start of the pending command's execution (R141): none before it, then the CTRL.BORDER that was read at it. -/
  started : Option (BitVec 8)
  /-- What the build fixed (R6, R45); no step changes it. -/
  cfg : Config
  /-- The level of the reset input (R380). -/
  resetLine : Bool
  /-- The data the last bus read returned to the host. -/
  busData : Word
  /-- What the agents do next, first event first; when it is empty the engine moves. -/
  inputs : List Input
  deriving DecidableEq, Repr

/-- Why the machine would stop with a fault: never. RSQR has no stop: every command fault completes the command and leaves
the engine usable (60_exceptions.md R344, R345, R347; 93_implementation_defined.md U14: "never stuck"), so this type has
no constructor and nobody raises one. Safe: the claim that nothing stops is proved, not assumed. -/
inductive Fault where
  deriving DecidableEq, Repr

/-- Why the model would refuse an instruction. -/
inductive Refusal where
  /-- The instruction has no meaning yet; raised only by an arm of `exec`, and no arm raises it. Safe. -/
  | notModelled (mnemonic : String)
  deriving DecidableEq, Repr

/-- The state after reset (R58, R380) of a block built with `cfg`: every register 0, the slot and the buffers empty, no
matrix. DESIGN CHOICE (log 4, 5): the unspecified, unobservable storage holds nothing, and the last read returned 0. -/
def State.resetWith (cfg : Config) : State :=
  { done := false, err := false, ovr := false, errcode := 0, result := 0, ie := false, border := 0, errcmd := 0,
    pent := 0, pen1 := 0, pen2 := 0, pen3 := 0, pen4 := 0, pending := none,
    polys := { p0 := [], p1 := [], p2 := [], p3 := [] }, cw := [],
    mvalid := false, ver := 0, size := 0, mat := [],
    started := none, cfg := cfg, resetLine := false, busData := 0, inputs := [] }

/-- The state right after reset, with the default build of R6. -/
def State.reset : State := State.resetWith Config.default

end Sys2Proof.Machine
end

