-- ==== Sys2Proof/Machine/Flags.lean ====
section
/-! DEFINITION. The status bits and every view of them: STATUS and its write-one-to-clear rule (10_state.md R35 to R40),
BUSY (R36), COMPLETE (R54), the interrupt output (R55) and the fault codes (60_exceptions.md R340). RSQR has no other
flags (R56). -/

namespace Sys2Proof.Machine

/-- The code of a fault (R340). -/
def FaultCode.code (c : FaultCode) : BitVec 4 :=
  match c with
  | .illegal => 1
  | .badBuf => 2
  | .badVersion => 3
  | .noMatrix => 4
  | .incomplete => 5
  | .empty => 6
  | .range => 7
  | .overflow => 8
  | .domain => 9

/-- A Bool as a bit. -/
def bit (b : Bool) : Nat :=
  if b then 1 else 0

/-- `zext_32(v)` (R7). -/
def zext32 (v : Nat) : Word :=
  BitVec.ofNat 32 v

/-- STATUS.BUSY: 1 exactly when the pending-command slot holds a command (R36). -/
def State.busy (s : State) : Bool :=
  s.pending.isSome

/-- STATUS (R35): BUSY, DONE, ERR and OVR are bits 0 to 3, ERRCODE is bits 11:8, and the rest reads 0. -/
def State.statusWord (s : State) : Word :=
  zext32 (bit s.busy + bit s.done * 2 ^ 1 + bit s.err * 2 ^ 2 + bit s.ovr * 2 ^ 3 + s.errcode.toNat * 2 ^ 8)

/-- A host write of `w` to STATUS (R35): bit 1 clears DONE, bit 2 clears ERR and ERRCODE, bit 3 clears OVR. -/
def State.writeStatus (s : State) (w : Word) : State :=
  { s with
    done := s.done && !w.getLsbD 1
    err := s.err && !w.getLsbD 2
    errcode := if w.getLsbD 2 then 0 else s.errcode
    ovr := s.ovr && !w.getLsbD 3 }

/-- COMPLETE (R54): a matrix is valid and no cell of it is UNSET. -/
def State.complete (s : State) : Bool :=
  s.mvalid && s.mat.all (fun row => row.all (fun x => x != .unset))

/-- The interrupt output `irq = CTRL.IE AND STATUS.DONE` (R55). -/
def State.irq (s : State) : Bool :=
  s.ie && s.done

end Sys2Proof.Machine
end

