-- ==== Sys2Proof/Machine/Ops.lean ====
section
/-! DEFINITION. The named operations over the registers and the storage: writing RESULT, a buffer, the codeword buffer, the
matrix and the penalties; completing a command, with or without a fault (40_system.md R142); issuing one (R140) and
starting it (R141); resets
(70_reset_and_hazards.md R380, R381). Taking a fault is `State.faulted`, the one shared operation (60_exceptions.md
R345). There is no return from it: the host acknowledges a fault with a STATUS write (R348, `State.writeStatus`). -/

namespace Sys2Proof.Machine

/-- `P[k]`, the raw list (R51). -/
def PolyBuffers.get (p : PolyBuffers) (k : Fin 4) : List Byte :=
  match k with
  | 0 => p.p0
  | 1 => p.p1
  | 2 => p.p2
  | 3 => p.p3

/-- `P[k] <- L` (R9). -/
def PolyBuffers.set (p : PolyBuffers) (k : Fin 4) (l : List Byte) : PolyBuffers :=
  match k with
  | 0 => { p with p0 := l }
  | 1 => { p with p1 := l }
  | 2 => { p with p2 := l }
  | 3 => { p with p3 := l }

/-- `RESULT <- zext_32(v)` (R145). -/
def State.setResult (s : State) (v : Nat) : State :=
  { s with result := zext32 v }

/-- `P[k] <- L`. -/
def State.setPoly (s : State) (k : Fin 4) (l : List Byte) : State :=
  { s with polys := s.polys.set k l }

/-- Replace the codeword buffer. -/
def State.setCw (s : State) (l : List Byte) : State :=
  { s with cw := l }

/-- Start a matrix of version `v`: `MVALID <- 1; Reg.VER <- VER; SIZE <- 4*VER + 17`, with cells `g` (R248). -/
def State.startMatrix (s : State) (v : Nat) (g : Grid) : State :=
  { s with mvalid := true, ver := v, size := 4 * v + 17, mat := g }

/-- Replace the cells of the current matrix. -/
def State.setMat (s : State) (g : Grid) : State :=
  { s with mat := g }

/-- Write PEN1 to PEN4 and their total PENT (R48). -/
def State.setPenalties (s : State) (q1 q2 q3 q4 : Nat) : State :=
  { s with
    pent := zext32 (q1 + q2 + q3 + q4), pen1 := zext32 q1, pen2 := zext32 q2, pen3 := zext32 q3, pen4 := zext32 q4 }

/-- The end of every completion (R142): `pending <- none`, so BUSY is 0 and no execution is under way, and `DONE <- 1`. -/
def State.completed (s : State) : State :=
  { s with pending := none, started := none, done := true }

/-- The word a fault records: the command pending in the slot. DESIGN CHOICE (log 9): 0 where the slot is empty, which no
step of the engine reaches. -/
def State.commandWord (s : State) : Word :=
  s.pending.getD 0

/-- Taking a fault (R142, R345): ERR, ERRCODE and ERRCMD are written, the command completes, and nothing else changes. -/
def State.faulted (s : State) (c : FaultCode) : State :=
  State.completed { s with err := true, errcode := c.code, errcmd := s.commandWord }

/-- Completion of a command that ran from `s` (R142): commit the effects, or take the fault and commit none of them. -/
def finish (s : State) (r : Check State) : Host.Outcome State Fault Refusal :=
  match r with
  | .ok t => .next t.completed
  | .error c => .next (s.faulted c)

/-- A legal host write of `w` to CMD (R140): dropped with OVR set while a command is pending, else accepted, not yet
started. -/
def State.issue (s : State) (w : Word) : State :=
  match s.pending with
  | some _ => { s with ovr := true }
  | none => { s with pending := some w, started := none, done := false }

/-- The CTRL.BORDER a command uses (R141, R326, R392): the one read at the start of its execution, and for a command that
has not started the one that CTRL holds, since it starts now. -/
def State.borderRead (s : State) : BitVec 8 :=
  s.started.getD s.border

/-- The pending command starts to execute (R141): it reads CTRL.BORDER, the one thing a command reads that an access can
change while it is pending. Nothing happens where no command is pending, where it has started already, and while the reset
input is asserted (R380). -/
def State.start (s : State) : State :=
  if s.resetLine || s.pending.isNone then s else { s with started := some s.borderRead }

/-- A reset of the block (R58, R380): every register and buffer takes its reset value. What the build fixed, and the
surroundings (the reset input's level, the last read's data, the events to come), are not the block's to reset. -/
def State.cleared (s : State) : State :=
  { State.resetWith s.cfg with resetLine := s.resetLine, busData := s.busData, inputs := s.inputs }

/-- A host write of `w` to CTRL (R42): with SRST = 1 the soft reset of R381 and nothing else. -/
def State.writeCtrl (s : State) (w : Word) : State :=
  if w.getLsbD 1 then s.cleared else { s with ie := w.getLsbD 0, border := w.extractLsb' 8 8 }

/-- The reset input takes a level (R380): the state is the reset state while it is asserted and when it is released; a
line that is low and stays low does nothing. -/
def State.driveReset (s : State) (asserted : Bool) : State :=
  if asserted || s.resetLine then { s.cleared with resetLine := asserted } else s

end Sys2Proof.Machine
end

