-- ==== Sys2Proof/Machine/Polynomial.lean ====
section
/-! DEFINITION. Polynomial construction and arithmetic on coefficient lists, most significant first: 42_poly_buffer.md R170
and 43_poly_arith.md R191, R193, R196, R198. -/

namespace Sys2Proof.Machine

/-- Raise `c` unless the condition holds. -/
def require (ok : Bool) (c : FaultCode) : Check Unit :=
  if ok then .ok () else .error c

/-- `zeros(k)` (R9). -/
def zeros (k : Nat) : List Byte :=
  List.replicate k 0

/-- The left-trim of a non-empty list: leading zeros go, but one zero stays when all are zero (R170). -/
def trim (l : List Byte) : List Byte :=
  match l.dropWhile (fun x => x == 0) with
  | [] => [0]
  | x :: xs => x :: xs

/-- `construct(L, shift)` (R170): EMPTY on the empty list, then OVERFLOW past PMAX. -/
def construct (l : List Byte) (shift : Nat) : Check (List Byte) := do
  require (l.length != 0) .empty
  let r := trim l ++ zeros shift
  require (r.length ≤ PMAX) .overflow
  return r

/-- A list is normalized when it is `[0]`, or is non-empty and does not start with a zero (R170). -/
def normalized (l : List Byte) : Bool :=
  l == [0] || (l != [] && l.headD 0 != 0)

/-- One row of the product's cross terms, `gexp(glog(a) + glog(b[j]))` for every `j` (R191). -/
def scale (a : Byte) (b : List Byte) : Check (List Byte) :=
  match b with
  | [] => return []
  | y :: ys => do
    let z ← gfMul a y
    let zs ← scale a ys
    return z :: zs

/-- XOR of two lists of one length, element by element: the addition of R153. -/
def xorLists (a b : List Byte) : List Byte :=
  List.zipWith (fun x y => x ^^^ y) a b

/-- The accumulator of R191's double loop, `len(a) + len(b) - 1` long: the row of `a[i]` is added at offset `i`. -/
def convolve (a b : List Byte) : Check (List Byte) :=
  match a with
  | [] => return zeros (b.length - 1)
  | x :: xs => do
    let row ← scale x b
    let rest ← convolve xs b
    return xorLists (row ++ zeros xs.length) (0 :: rest)

/-- `pmul(a, b)` for normalized lists (R191): OVERFLOW first, then DOMAIN on any zero coefficient. -/
def pmul (a b : List Byte) : Check (List Byte) := do
  require (a.length + b.length - 1 ≤ PMAX) .overflow
  let num ← convolve a b
  construct num 0

/-- `[ p[k] XOR gexp(glog(q[k]) + ratio) ]` over the divisor, then the rest of the dividend (R193). -/
def cancel (ratio : Int) (p q : List Byte) : Check (List Byte) :=
  match q, p with
  | [], p => return p
  | _ :: _, [] => return []
  | y :: ys, x :: xs => do
    let ly ← glog y
    let rest ← cancel ratio xs ys
    return (x ^^^ gexp (ly + ratio)) :: rest

/-- One reduction step of R193: cancel the leading term and construct again. -/
def reduceStep (p q : List Byte) : Check (List Byte) := do
  let lp ← glog (p.headD 0)
  let lq ← glog (q.headD 0)
  let num ← cancel ((lp : Int) - lq) p q
  construct num 0

/-- The loop of R193 with a bound on its steps; `len(p) + 1` steps always suffice, since each one shortens `p`, but the one
that leaves `[0]` under a constant divisor, and the step after that faults (log 10). -/
def reduce (fuel : Nat) (p q : List Byte) : Check (List Byte) :=
  if p.length < q.length then .ok p
  else
    match fuel with
    | 0 => .ok p
    | n + 1 => do
      let p' ← reduceStep p q
      reduce n p' q

/-- `pmod(p, q)` for normalized lists (R193). -/
def pmod (p q : List Byte) : Check (List Byte) :=
  reduce (p.length + 1) p q

/-- The product of the factors `(x - gexp(i))`, `i` in `0 .. n-1` (R196). -/
def genProduct (n : Nat) : Check (List Byte) :=
  match n with
  | 0 => .ok [1]
  | i + 1 => do
    let g ← genProduct i
    pmul g [1, gexp i]

/-- `gen(n)`, the generator polynomial of degree `n` (R196): OVERFLOW when it needs more than PMAX coefficients. -/
def gen (n : Nat) : Check (List Byte) := do
  require (n + 1 ≤ PMAX) .overflow
  genProduct n

/-- The remainder right-aligned into exactly `n` bytes, zero-filled on the left (R198). -/
def rightAlign (n : Nat) (m : List Byte) : List Byte :=
  (List.range n).map (fun i => if n ≤ i + m.length then m.getD (i + m.length - n) 0 else 0)

/-- `rsec(L, n)`, the Reed-Solomon remainder of one block (R198). -/
def rsec (l : List Byte) (n : Nat) : Check (List Byte) := do
  require (l.length != 0) .empty
  let g ← gen n
  let raw ← construct l n
  let m ← pmod raw g
  return rightAlign n m

end Sys2Proof.Machine
end

