-- ==== Sys2Proof/Machine/Symbol.lean ====
section
/-! DEFINITION. The construction of a symbol matrix on its cells alone: the cell write, the skeleton, format and version
information, the dark module, the zigzag and the data step, and the whole build (45_matrix_build.md R240 to R265), with
the mask functions of 46_mask_eval.md R290 that the data step applies. -/

namespace Sys2Proof.Machine

/-- A boolean cell colour: DARK is true (R11). -/
def Cell.ofBool (b : Bool) : Cell :=
  if b then .dark else .light

/-- `MAT[r][c]`. -/
def cellAt (g : Grid) (r c : Nat) : Cell :=
  (g.getD r []).getD c .unset

/-- The cell is UNSET. -/
def Cell.isUnset (x : Cell) : Bool :=
  match x with
  | .unset => true
  | .light => false
  | .dark => false

/-- The cell is DARK, the boolean `true` (R11). -/
def Cell.isDark (x : Cell) : Bool :=
  match x with
  | .unset => false
  | .light => false
  | .dark => true

/-- The value a write-if-unset of `v` leaves in a cell that holds `x`. -/
def Cell.orElse (x v : Cell) : Cell :=
  match x with
  | .unset => v
  | .light => .light
  | .dark => .dark

/-- `Set(r, c, v)`: write the cell only if it is UNSET (R241). -/
def setCell (g : Grid) (r c : Nat) (v : Cell) : Grid :=
  g.modify r (fun row => row.modify c (fun x => x.orElse v))

/-- `MAT[r][c] <- v`, the data step's plain write (R262). -/
def writeCell (g : Grid) (r c : Nat) (v : Cell) : Grid :=
  g.modify r (fun row => row.set c v)

/-- One `Set` a step asks for. -/
structure Placement where
  row : Nat
  col : Nat
  colour : Cell
  deriving DecidableEq, Repr

/-- Perform the `Set`s of a step in order. -/
def placeAll (g : Grid) (ps : List Placement) : Grid :=
  ps.foldl (fun g p => setCell g p.row p.col p.colour) g

/-- The integers `lo .. hi`, in order. -/
def intRange (lo hi : Int) : List Int :=
  (List.range (hi + 1 - lo).toNat).map (fun k => lo + (k : Int))

/-- A square pattern with centre or corner `(R, C)`: the offset pairs `(i, j)`, row first, each a `Set` of its colour, but
those outside the matrix. -/
def pattern (size : Nat) (R C : Int) (offsets : List Int) (isDark : Int → Int → Bool) : List Placement :=
  offsets.flatMap fun i => offsets.filterMap fun j =>
    if 0 ≤ R + i ∧ R + i < size ∧ 0 ≤ C + j ∧ C + j < size then
      some { row := (R + i).toNat, col := (C + j).toNat, colour := Cell.ofBool (isDark i j) }
    else none

/-- The colour rule of step 1, over offsets -1 to 7: the finder's rings, and LIGHT for the separator (R242, R243). -/
def finderDark (i j : Int) : Bool :=
  (0 ≤ i && i ≤ 6 && (j == 0 || j == 6)) || (0 ≤ j && j ≤ 6 && (i == 0 || i == 6)) ||
  (2 ≤ i && i ≤ 4 && 2 ≤ j && j ≤ 4)

/-- Step 1: the three finder patterns with their separators (R243). -/
def finderPlacements (size : Nat) : List Placement :=
  pattern size 0 0 (intRange (-1) 7) finderDark ++
  pattern size ((size : Int) - 7) 0 (intRange (-1) 7) finderDark ++
  pattern size 0 ((size : Int) - 7) (intRange (-1) 7) finderDark

/-- `ALIGN[v]` (R244), the entry of version `v` at index `v - 1`. -/
def alignTable : List (List Nat) :=
  [[], [6, 18], [6, 22], [6, 26], [6, 30], [6, 34], [6, 22, 38], [6, 24, 42], [6, 26, 46], [6, 28, 50]] ++
  [[6, 30, 54], [6, 32, 58], [6, 34, 62], [6, 26, 46, 66], [6, 26, 48, 70], [6, 26, 50, 74], [6, 30, 54, 78],
   [6, 30, 56, 82], [6, 30, 58, 86], [6, 34, 62, 90]] ++
  [[6, 28, 50, 72, 94], [6, 26, 50, 74, 98], [6, 30, 54, 78, 102], [6, 28, 54, 80, 106], [6, 32, 58, 84, 110],
   [6, 30, 58, 86, 114], [6, 34, 62, 90, 118], [6, 26, 50, 74, 98, 122], [6, 30, 54, 78, 102, 126],
   [6, 26, 52, 78, 104, 130]] ++
  [[6, 30, 56, 82, 108, 134], [6, 34, 60, 86, 112, 138], [6, 30, 58, 86, 114, 142], [6, 34, 62, 90, 118, 146],
   [6, 30, 54, 78, 102, 126, 150], [6, 24, 50, 76, 102, 128, 154], [6, 28, 54, 80, 106, 132, 158],
   [6, 32, 58, 84, 110, 136, 162], [6, 26, 54, 82, 110, 138, 166], [6, 30, 58, 86, 114, 142, 170]]

/-- `ALIGN[v]`. -/
def alignCentres (v : Nat) : List Nat :=
  alignTable.getD (v - 1) []

/-- The colour rule of step 2: dark border, light ring, dark centre (R245). -/
def alignDark (i j : Int) : Bool :=
  i == -2 || i == 2 || j == -2 || j == 2 || (i == 0 && j == 0)

/-- One alignment candidate: skipped whole when its centre is already set (R245). -/
def placeAlignment (size : Nat) (g : Grid) (row col : Nat) : Grid :=
  if (cellAt g row col).isUnset then placeAll g (pattern size row col (intRange (-2) 2) alignDark) else g

/-- Step 2: every ordered pair of entries of `ALIGN[v]`, row entry first (R245). -/
def placeAlignments (size v : Nat) (g : Grid) : Grid :=
  (alignCentres v).foldl (fun g row => (alignCentres v).foldl (fun g col => placeAlignment size g row col) g) g

/-- Step 3: the timing patterns on column 6 and then row 6, indices 8 to SIZE-9 (R246). -/
def timingPlacements (size : Nat) : List Placement :=
  let between := (List.range (size - 16)).map (fun k => k + 8)
  between.map (fun r => { row := r, col := 6, colour := Cell.ofBool (r % 2 == 0) }) ++
  between.map (fun c => { row := 6, col := c, colour := Cell.ofBool (c % 2 == 0) })

/-- `SIZE = 4*v + 17` (R240). -/
def sideOf (v : Nat) : Nat :=
  4 * v + 17

/-- A `size` by `size` matrix with every cell UNSET (R247). -/
def blankGrid (size : Nat) : Grid :=
  List.replicate size (List.replicate size .unset)

/-- `skeleton(v)`, steps 1 to 3 (R247). -/
def skeleton (v : Nat) : Grid :=
  let size := sideOf v
  placeAll (placeAlignments size v (placeAll (blankGrid size) (finderPlacements size))) (timingPlacements size)

/-- `bitlen(x)` (R7). -/
def bitlen (x : Nat) : Nat :=
  if x = 0 then 0 else Nat.log2 x + 1

/-- The reduction loop of R249 and R254 by the generator `g`; each turn shortens `r`, so `bitlen r` turns suffice (log 10). -/
def bchLoop (g fuel r : Nat) : Nat :=
  match fuel with
  | 0 => r
  | n + 1 => if bitlen g ≤ bitlen r then bchLoop g n (r ^^^ (g <<< (bitlen r - bitlen g))) else r

/-- The remainder of `r` by the generator `g`. -/
def bchRemainder (g r : Nat) : Nat :=
  bchLoop g (bitlen r + 1) r

/-- The format generator (R249). -/
def G15 : Nat := 0b10100110111

/-- The fixed format mask (R249). -/
def G15_MASK : Nat := 0b101010000010010

/-- The version generator (R254). -/
def G18 : Nat := 0b1111100100101

/-- `bch15(d)`, the 15-bit format word of 5 data bits (R249). -/
def bch15 (d : Nat) : Nat :=
  ((d <<< 10) ||| bchRemainder G15 (d <<< 10)) ^^^ G15_MASK

/-- `bch18(v)`, the 18-bit version word (R254). -/
def bch18 (v : Nat) : Nat :=
  (v <<< 12) ||| bchRemainder G18 (v <<< 12)

/-- `FV(i)`, the cell of format bit `i` in column 8 (R251). -/
def formatV (size i : Nat) : Nat × Nat :=
  if i < 6 then (i, 8) else if i < 8 then (i + 1, 8) else (size - 15 + i, 8)

/-- `FH(i)`, the cell of format bit `i` in row 8 (R251). -/
def formatH (size i : Nat) : Nat × Nat :=
  if i < 8 then (8, size - 1 - i) else if i = 8 then (8, 7) else (8, 14 - i)

/-- `VA(i)`, the cell of version bit `i` left of the top-right finder (R255). -/
def versionA (size i : Nat) : Nat × Nat :=
  (i / 3, size - 11 + i % 3)

/-- `VB(i)`, the cell of version bit `i` above the bottom-left finder (R255). -/
def versionB (size i : Nat) : Nat × Nat :=
  (size - 11 + i % 3, i / 3)

/-- The `Set`s that write bits 0 to `n - 1` of `w` at the positions `pos` gives them. -/
def wordPlacements (n w : Nat) (pos : Nat → Nat × Nat) : List Placement :=
  (List.range n).map (fun i => { row := (pos i).1, col := (pos i).2, colour := Cell.ofBool (w.testBit i) })

/-- The word step 5 writes: 0 in test mode, else the format word of `(lvl << 3) OR mask` (R250, R252). -/
def formatWord (lvl : Fin 4) (mask : Fin 8) (t : Bool) : Nat :=
  if t then 0 else bch15 ((lvl.val <<< 3) ||| mask.val)

/-- `place_fmt`: the 15 bits in column 8 and again in row 8 (R252). -/
def placeFormat (size : Nat) (g : Grid) (w : Nat) : Grid :=
  placeAll g (wordPlacements 15 w (formatV size) ++ wordPlacements 15 w (formatH size))

/-- The word step 6 writes: the version word, or 0 in a test build of a `ZERO` block (R256). -/
def versionWord (cfg : Config) (v : Nat) (t : Bool) : Nat :=
  if t && cfg.testVersionInfo == .zero then 0 else bch18 v

/-- Step 6's cells: the 18 bits in the top-right block and again in the bottom-left block (R256). -/
def placeVersion (size : Nat) (g : Grid) (w : Nat) : Grid :=
  placeAll g (wordPlacements 18 w (versionA size) ++ wordPlacements 18 w (versionB size))

/-- The dark module's colour: DARK, but `TEST_DARK_MODULE` in test mode (R257). -/
def darkColour (cfg : Config) (t : Bool) : Cell :=
  if t && cfg.testDarkModule == .light then .light else .dark

/-- `place_dark`: the cell `(SIZE-8, 8)` (R257). -/
def placeDark (size : Nat) (g : Grid) (colour : Cell) : Grid :=
  setCell g (size - 8) 8 colour

/-- The data mask functions `maskf(m, i, j)` (R290). -/
def maskf (m : Fin 8) (i j : Nat) : Bool :=
  match m with
  | 0 => (i + j) % 2 == 0
  | 1 => i % 2 == 0
  | 2 => j % 3 == 0
  | 3 => (i + j) % 3 == 0
  | 4 => (i / 2 + j / 3) % 2 == 0
  | 5 => i * j % 2 + i * j % 3 == 0
  | 6 => (i * j % 2 + i * j % 3) % 2 == 0
  | 7 => (i * j % 3 + (i + j) % 2) % 2 == 0

/-- Strip `k` of the walk: the right column `cc` of its pair, which skips column 6, in each row the right cell first, upward
in the first strip and every second one after it (R259). -/
def zigzagStrip (size k : Nat) : List (Nat × Nat) :=
  let col := size - 1 - 2 * k
  let cc := if col ≤ 6 then col - 1 else col
  let rows := if k % 2 = 0 then (List.range size).reverse else List.range size
  rows.flatMap (fun r => [(r, cc), (r, cc - 1)])

/-- Every cell the walk visits, in order: strips while `col > 0` (R259). -/
def zigzagVisits (size : Nat) : List (Nat × Nat) :=
  (List.range ((size - 1) / 2)).flatMap (zigzagStrip size)

/-- `zigzag()`, the visited cells found UNSET (R259). -/
def zigzag (size : Nat) (g : Grid) : List (Nat × Nat) :=
  (zigzagVisits size).filter (fun p => (cellAt g p.1 p.2).isUnset)

/-- The bits of a codeword, bit 7 first (R84). -/
def byteBits (b : Byte) : List Bool :=
  [b.getLsbD 7, b.getLsbD 6, b.getLsbD 5, b.getLsbD 4, b.getLsbD 3, b.getLsbD 2, b.getLsbD 1, b.getLsbD 0]

/-- The codeword buffer as one bit sequence (R84). -/
def bitStream (cw : List Byte) : List Bool :=
  cw.flatMap byteBits

/-- The cells of the order with their data bits: bit `k` of the stream for cell `k`, 0 when the stream has run out, and
surplus bits not placed (R260). -/
def dataBits (order : List (Nat × Nat)) (cw : List Byte) : List ((Nat × Nat) × Bool) :=
  order.zip (bitStream cw ++ List.replicate order.length false)

/-- Write each data cell, its bit XOR the mask function (R261, R262). -/
def fillData (m : Fin 8) (g : Grid) (cells : List ((Nat × Nat) × Bool)) : Grid :=
  cells.foldl (fun g p => writeCell g p.1.1 p.1.2 (Cell.ofBool (p.2 ^^ maskf m p.1.1 p.1.2))) g

/-- `place_data`, the body of R262 on the stream `cw`. -/
def placeData (size : Nat) (m : Fin 8) (cw : List Byte) (g : Grid) : Grid :=
  fillData m g (dataBits (zigzag size g) cw)

/-- Steps 1 to 3 and 5 to 7 of a build: everything but the data (R263). -/
def buildFixed (cfg : Config) (v : Nat) (lvl : Fin 4) (mask : Fin 8) (t : Bool) : Grid :=
  let size := sideOf v
  let g := placeFormat size (skeleton v) (formatWord lvl mask t)
  let g := if 7 ≤ v then placeVersion size g (versionWord cfg v t) else g
  placeDark size g (darkColour cfg t)

/-- `build(v, lvl, mask, t)` with the stream `cw` (R263). -/
def build (cfg : Config) (cw : List Byte) (v : Nat) (lvl : Fin 4) (mask : Fin 8) (t : Bool) : Grid :=
  placeData (sideOf v) mask cw (buildFixed cfg v lvl mask t)

/-- The number of data cells `build` fills (R264, R267). -/
def buildCount (cfg : Config) (v : Nat) (lvl : Fin 4) (mask : Fin 8) (t : Bool) : Nat :=
  (zigzag (sideOf v) (buildFixed cfg v lvl mask t)).length

end Sys2Proof.Machine
end

