-- ==== Sys2Proof/Machine/Penalty.lean ====
section
/-! DEFINITION. The four penalty rules on a complete matrix and the mask selection, 46_mask_eval.md R292 to R299. -/

namespace Sys2Proof.Machine

/-- The colours of a row, DARK true (R11). -/
def rowColours (row : List Cell) : List Bool :=
  row.map Cell.isDark

/-- The matrix as colours. -/
def colours (g : Grid) : List (List Bool) :=
  g.map rowColours

/-- Column `c`, top to bottom. -/
def columnOf (m : List (List Bool)) (c : Nat) : List Bool :=
  m.map (fun row => row.getD c false)

/-- The `2*SIZE` lines of a matrix: its rows, then its columns (R292). -/
def linesOf (size : Nat) (m : List (List Bool)) : List (List Bool) :=
  m ++ (List.range size).map (columnOf m)

/-- The lengths of the maximal runs of equal values, of a line whose run so far has `n` cells of colour `c`. -/
def runsFrom (c : Bool) (n : Nat) (l : List Bool) : List Nat :=
  match l with
  | [] => [n]
  | x :: xs => if x = c then runsFrom c (n + 1) xs else n :: runsFrom x 1 xs

/-- The lengths of the maximal runs of a line (R293). -/
def runLengths (l : List Bool) : List Nat :=
  match l with
  | [] => []
  | x :: xs => runsFrom x 1 xs

/-- What a run adds: `len - 2` when `len >= 5` (R293). -/
def runPenalty (len : Nat) : Nat :=
  if 5 ≤ len then len - 2 else 0

/-- P1, the run-length penalty (R293). -/
def p1 (size : Nat) (m : List (List Bool)) : Nat :=
  ((linesOf size m).map (fun l => ((runLengths l).map runPenalty).sum)).sum

/-- The number of uniform 2×2 blocks between two adjacent rows. -/
def rowBlocks (a b : List Bool) : Nat :=
  match a, b with
  | x :: x' :: xs, y :: y' :: ys => bit (x == x' && x == y && x == y') + rowBlocks (x' :: xs) (y' :: ys)
  | _, _ => 0

/-- The number of uniform 2×2 blocks of a matrix (R294). -/
def blockCount (m : List (List Bool)) : Nat :=
  match m with
  | a :: b :: rest => rowBlocks a b + blockCount (b :: rest)
  | _ => 0

/-- P2, the block penalty (R294). -/
def p2 (m : List (List Bool)) : Nat :=
  3 * blockCount m

/-- PAT_A of R295: dark-light-dark(3)-light-dark, then 4 light. -/
def patA : List Bool :=
  [true, false, true, true, true, false, true, false, false, false, false]

/-- PAT_B of R295: 4 light, then dark-light-dark(3)-light-dark. -/
def patB : List Bool :=
  [false, false, false, false, true, false, true, true, true, false, true]

/-- The number of windows of 11 consecutive cells of a line that equal one of the two patterns (R295). -/
def finderWindows (l : List Bool) : Nat :=
  match l with
  | [] => 0
  | x :: xs => bit (patA.isPrefixOf (x :: xs) || patB.isPrefixOf (x :: xs)) + finderWindows xs

/-- P3, the finder-like penalty (R295). -/
def p3 (size : Nat) (m : List (List Bool)) : Nat :=
  40 * ((linesOf size m).map finderWindows).sum

/-- `D`, the number of dark cells (R296). -/
def darkCount (m : List (List Bool)) : Nat :=
  (m.map (fun row => row.count true)).sum

/-- P4, the dark-ratio penalty, in integers (R296). -/
def p4 (size : Nat) (m : List (List Bool)) : Nat :=
  10 * (((20 * darkCount m : Int) - 10 * (size * size : Nat)).natAbs / (size * size))

/-- The four penalties of a matrix. -/
structure Score where
  q1 : Nat
  q2 : Nat
  q3 : Nat
  q4 : Nat
  deriving DecidableEq, Repr

/-- The total penalty (R297). -/
def Score.total (q : Score) : Nat :=
  q.q1 + q.q2 + q.q3 + q.q4

/-- Score a matrix of side `size` (R293 to R296). -/
def score (size : Nat) (g : Grid) : Score :=
  let m := colours g
  { q1 := p1 size m, q2 := p2 m, q3 := p3 size m, q4 := p4 size m }

/-- The trial of mask `m`: a full build in test mode, scored (R299). -/
def trial (cfg : Config) (cw : List Byte) (v : Nat) (lvl : Fin 4) (m : Fin 8) : Score :=
  score (sideOf v) (build cfg cw v lvl m true)

/-- One turn of the selection: mask `m` replaces the best so far only on strict improvement (R299). -/
def better (best : Fin 8 × Score) (m : Fin 8) (q : Score) : Fin 8 × Score :=
  if q.total < best.2.total then (m, q) else best

/-- `select(v, lvl)`: masks 0 to 7 in increasing order, the strictly lowest total wins (R299). -/
def select (cfg : Config) (cw : List Byte) (v : Nat) (lvl : Fin 4) : Fin 8 × Score :=
  [1, 2, 3, 4, 5, 6, 7].foldl (fun best m => better best m (trial cfg cw v lvl m)) (0, trial cfg cw v lvl 0)

end Sys2Proof.Machine
end

