-- ==== Sys2Proof/Machine/Operands.lean ====
section
/-! DEFINITION. The operand forms of the commands and the checks on them: buffer fields (30_encoding.md R118), polynomial
operands (43_poly_arith.md R190), VER, the matrix state and the cell coordinates (60_exceptions.md R340, R341), the
bordered matrix (47_matrix_query.md R326) and the neighbourhood word (R322). -/

namespace Sys2Proof.Machine

/-- A buffer field that the command uses: BAD_BUF when it is 4 or more (R118, R143). -/
def bufferIndex (k : Nat) : Check (Fin 4) :=
  if h : k < NPOLY then .ok ⟨k, h⟩ else .error .badBuf

/-- `list(P[k])`, the raw list. -/
def State.poly (s : State) (k : Fin 4) : List Byte :=
  s.polys.get k

/-- `opnd(k) = construct(list(P[k]), 0)`: a polynomial operand, EMPTY on an empty buffer (R190). -/
def State.operand (s : State) (k : Fin 4) : Check (List Byte) :=
  construct (s.poly k) 0

/-- BAD_VERSION when VER is outside 1..40 (R240). -/
def requireVersion (v : Nat) : Check Unit :=
  require (1 ≤ v && v ≤ 40) .badVersion

/-- NO_MATRIX when MVALID = 0 (R340). -/
def State.requireMatrix (s : State) : Check Unit :=
  require s.mvalid .noMatrix

/-- INCOMPLETE when the matrix has an UNSET cell (R340, R54). -/
def State.requireComplete (s : State) : Check Unit :=
  require s.complete .incomplete

/-- RANGE when an index is at or past the end (R340). -/
def requireBelow (i len : Nat) : Check Unit :=
  require (i < len) .range

/-- RANGE when a coordinate pair is outside a square of the given side. -/
def requireInside (row col side : Nat) : Check Unit :=
  require (row < side && col < side) .range

/-- The code of a raw cell: 0 LIGHT, 1 DARK, 2 UNSET (R320). -/
def Cell.code (x : Cell) : Nat :=
  match x with
  | .light => 0
  | .dark => 1
  | .unset => 2

/-- `(r, c)` lies inside the matrix and is DARK, for coordinates that may be outside. -/
def darkAt (size : Nat) (g : Grid) (r c : Int) : Bool :=
  0 ≤ r && r < size && 0 ≤ c && c < size && (cellAt g r.toNat c.toNat).isDark

/-- The neighbourhood word: bit `3*(dr+1) + (dc+1)` is `(r+dr, c+dc)`, NW to SE (R322). -/
def ctx (size : Nat) (g : Grid) (r c : Nat) : Nat :=
  bit (darkAt size g (r - 1) (c - 1)) + bit (darkAt size g (r - 1) c) * 2 ^ 1 + bit (darkAt size g (r - 1) (c + 1)) * 2 ^ 2 +
  bit (darkAt size g r (c - 1)) * 2 ^ 3 + bit (darkAt size g r c) * 2 ^ 4 + bit (darkAt size g r (c + 1)) * 2 ^ 5 +
  bit (darkAt size g (r + 1) (c - 1)) * 2 ^ 6 + bit (darkAt size g (r + 1) c) * 2 ^ 7 +
  bit (darkAt size g (r + 1) (c + 1)) * 2 ^ 8

/-- The side of the bordered matrix, `SIZE + 2 * CTRL.BORDER`, with BORDER read when the command executes (R326, R392). -/
def State.borderedSide (s : State) : Nat :=
  s.size + 2 * s.borderRead.toNat

/-- `bordered(R, C)` (R326). -/
def State.bordered (s : State) (row col : Nat) : Nat :=
  let b := s.borderRead.toNat
  bit (decide (b ≤ row ∧ row < s.size + b ∧ b ≤ col ∧ col < s.size + b) && (cellAt s.mat (row - b) (col - b)).isDark)

end Sys2Proof.Machine
end

