-- ==== Sys2Proof/Machine/Bus.lean ====
section
/-! DEFINITION. The register window and the host's accesses to it: the register reads of 10_state.md R33 to R49, the legal
access of 20_memory.md R82, the side effects of R87 and the byte lanes of R83. -/

namespace Sys2Proof.Machine

/-- MINFO (R46): VER is bits 5:0, SIZE is bits 15:8, MVALID is bit 16 and COMPLETE is bit 17. VER and SIZE read 0 when
MVALID = 0. -/
def State.minfo (s : State) : Word :=
  if s.mvalid then zext32 (s.ver % 2 ^ 6 + s.size % 2 ^ 8 * 2 ^ 8 + 2 ^ 16 + bit s.complete * 2 ^ 17) else 0

/-- CWLEN (R47): bits 12:0 hold `CW.len`. -/
def State.cwlen (s : State) : Word :=
  zext32 (s.cw.length % 2 ^ 13)

/-- CTRL as it reads (R42): IE is bit 0, BORDER is bits 15:8, and SRST and the reserved bits read 0. -/
def State.ctrl (s : State) : Word :=
  zext32 (bit s.ie + s.border.toNat * 2 ^ 8)

/-- ID (R44). -/
def idWord : Word := 0x52535101

/-- PARAM (R45): TDM is bit 0, TVI is bit 1, NPOLY is bits 7:4, log2(PMAX) is bits 11:8 and log2(CWMAX) is bits 15:12. -/
def paramWord (cfg : Config) : Word :=
  zext32 (bit (cfg.testDarkModule == .dark) + bit (cfg.testVersionInfo == .real) * 2 ^ 1 + NPOLY * 2 ^ 4 + 8 * 2 ^ 8 +
    12 * 2 ^ 12)

/-- What a legal read of the register at offset `off` returns (R33). CMD and the reserved offsets read 0 (R34, R49). -/
def State.readRegister (s : State) (off : Nat) : Word :=
  match off with
  | 0x04 => s.statusWord
  | 0x08 => s.result
  | 0x0C => s.ctrl
  | 0x10 => s.errcmd
  | 0x14 => s.minfo
  | 0x18 => s.cwlen
  | 0x1C => s.pent
  | 0x20 => s.pen1
  | 0x24 => s.pen2
  | 0x28 => s.pen3
  | 0x2C => s.pen4
  | 0x30 => idWord
  | 0x34 => paramWord s.cfg
  | _ => 0

/-- A legal write of `w` to the register at offset `off`: CMD, STATUS and CTRL have an effect, and a write to any other
offset is ignored (R87). -/
def State.writeRegister (s : State) (off : Nat) (w : Word) : State :=
  match off with
  | 0x00 => s.issue w
  | 0x04 => s.writeStatus w
  | 0x0C => s.writeCtrl w
  | _ => s

/-- The offset a legal access names (R82): a 32-bit access at `BASE + off`, `off` a multiple of 4 in 0x00..0x3C. Every
other access is refused (DEDUCED, log 7: one outside the window too), and so is every access while the reset input is
asserted (R380). -/
def State.legalOffset (s : State) (addr width : Nat) : Option Nat :=
  if !s.resetLine && width == 32 && s.cfg.base ≤ addr && addr < s.cfg.base + 64 && (addr - s.cfg.base) % 4 == 0 then
    some (addr - s.cfg.base)
  else none

/-- The data a read returns to the host: the register's value, or 0 when it is refused (R82). -/
def State.busRead (s : State) (addr width : Nat) : Word :=
  match s.legalOffset addr width with
  | some off => s.readRegister off
  | none => 0

/-- The effect of a write: the register's, or none when it is refused (R82). -/
def State.busWrite (s : State) (addr width : Nat) (w : Word) : State :=
  match s.legalOffset addr width with
  | some off => s.writeRegister off w
  | none => s

/-- One host access. A read has no side effect but the data it returns (R87). -/
def State.hostAccess (s : State) (a : Access) : State :=
  match a with
  | .read addr width => { s with busData := s.busRead addr width }
  | .write addr width w => s.busWrite addr width w

/-- Byte lane `k` of a register value: bits `8k+7:8k`, at byte address `BASE + off + k` (R83). -/
def byteLane (w : Word) (k : Nat) : Byte :=
  w.extractLsb' (8 * k) 8

end Sys2Proof.Machine
end

