-- ==== Sys2Proof/Syntax.lean ====
section
/-! DEFINITION. The commands of RSQR, one constructor per row of spec/opcode_table.json (30_encoding.md R119, R120).
Operands stand in the order of their fields in the word, from the top bit down. A number field is a Nat whose bound
WellFormed checks; a byte is a Byte; MASK and LVL have no illegal values (R123) and are a Fin 8 and a Fin 4. -/

namespace Sys2Proof

/-- A command (R120: the fields each one uses). -/
inductive Instr where
  /-- NOP (R144). -/
  | nop
  /-- GEXP n (R155). -/
  | gexp (n : Nat)
  /-- GLOG a (R156). -/
  | glog (a : Byte)
  /-- GMUL a, b (R157). -/
  | gmul (a b : Byte)
  /-- PCLR pD (R171). -/
  | pclr (d : Nat)
  /-- PPUSH pD, byte (R172). -/
  | ppush (d : Nat) (b : Byte)
  /-- PRD pD, idx (R173). -/
  | prd (d idx : Nat)
  /-- PLEN pD (R174). -/
  | plen (d : Nat)
  /-- PNORM pD, pA, shift (R175). -/
  | pnorm (d a shift : Nat)
  /-- PMUL pD, pA, pB (R192). -/
  | pmul (d a b : Nat)
  /-- PMOD pD, pA, pB (R195). -/
  | pmod (d a b : Nat)
  /-- PGEN pD, n (R197). -/
  | pgen (d n : Nat)
  /-- RSEC pD, pA, n (R199). -/
  | rsec (d a n : Nat)
  /-- CCLR (R221). -/
  | cclr
  /-- CPUSH byte (R222). -/
  | cpush (b : Byte)
  /-- CRD idx (R223). -/
  | crd (idx : Nat)
  /-- CPUSHP pA (R224). -/
  | cpushp (a : Nat)
  /-- CLEN (R225). -/
  | clen
  /-- MSKEL v (R248). -/
  | mskel (v : Nat)
  /-- MFMT lvl, mask, test (R253). -/
  | mfmt (t : Bool) (mask : Fin 8) (lvl : Fin 4)
  /-- MVERI test (R256). -/
  | mveri (t : Bool)
  /-- MDARK test (R258). -/
  | mdark (t : Bool)
  /-- MDATA mask (R262). -/
  | mdata (mask : Fin 8)
  /-- MBUILD v, lvl, mask, test (R264). -/
  | mbuild (t : Bool) (mask : Fin 8) (lvl : Fin 4) (v : Nat)
  /-- MPEN (R300). -/
  | mpen
  /-- MSEL v, lvl (R302). -/
  | msel (lvl : Fin 4) (v : Nat)
  /-- MAUTO v, lvl (R303). -/
  | mauto (lvl : Fin 4) (v : Nat)
  /-- MRD row, col (R321). -/
  | mrd (row col : Nat)
  /-- MCTX row, col (R323). -/
  | mctx (row col : Nat)
  /-- MBRD row, col (R327). -/
  | mbrd (row col : Nat)
  /-- MBSIZE (R325). -/
  | mbsize
  deriving DecidableEq, Repr

end Sys2Proof
end

