-- ==== Sys2Proof/WellFormed.lean ====
section
/-! DEFINITION. Which command terms have a word: every operand fits its field (30_encoding.md R113 to R117). A value that
fits its field but that the command rejects (`p5`, version 41) is well formed and faults when it runs (R123). -/

namespace Sys2Proof

/-- A buffer field D, A or B holds 0–15 (R113, R118). -/
abbrev fitsBuffer (k : Nat) : Prop := k < 16

/-- IMM16 holds 0–65535 (R117). -/
abbrev fitsImm16 (n : Nat) : Prop := n < 65536

/-- ROW and COL hold 0–4095 (R116). -/
abbrev fitsCoord (n : Nat) : Prop := n < 4096

/-- VER holds 0–63 (R117). -/
abbrev fitsVersion (v : Nat) : Prop := v < 64

/-- Every operand of the command fits the field that carries it. -/
def Instr.wellFormed (i : Instr) : Bool :=
  match i with
  | .nop => true
  | .gexp n => decide (fitsImm16 n)
  | .glog _ => true
  | .gmul _ _ => true
  | .pclr d => decide (fitsBuffer d)
  | .ppush d _ => decide (fitsBuffer d)
  | .prd d idx => decide (fitsBuffer d ∧ fitsImm16 idx)
  | .plen d => decide (fitsBuffer d)
  | .pnorm d a shift => decide (fitsBuffer d ∧ fitsBuffer a ∧ fitsImm16 shift)
  | .pmul d a b => decide (fitsBuffer d ∧ fitsBuffer a ∧ fitsBuffer b)
  | .pmod d a b => decide (fitsBuffer d ∧ fitsBuffer a ∧ fitsBuffer b)
  | .pgen d n => decide (fitsBuffer d ∧ fitsImm16 n)
  | .rsec d a n => decide (fitsBuffer d ∧ fitsBuffer a ∧ fitsImm16 n)
  | .cclr => true
  | .cpush _ => true
  | .crd idx => decide (fitsImm16 idx)
  | .cpushp a => decide (fitsBuffer a)
  | .clen => true
  | .mskel v => decide (fitsVersion v)
  | .mfmt _ _ _ => true
  | .mveri _ => true
  | .mdark _ => true
  | .mdata _ => true
  | .mbuild _ _ _ v => decide (fitsVersion v)
  | .mpen => true
  | .msel _ v => decide (fitsVersion v)
  | .mauto _ v => decide (fitsVersion v)
  | .mrd row col => decide (fitsCoord row ∧ fitsCoord col)
  | .mctx row col => decide (fitsCoord row ∧ fitsCoord col)
  | .mbrd row col => decide (fitsCoord row ∧ fitsCoord col)
  | .mbsize => true

/-- The check as a proposition. -/
abbrev Instr.WellFormed (i : Instr) : Prop := i.wellFormed = true

end Sys2Proof
end

