-- ==== Sys2Proof/Decode.lean ====
section
/-! DEFINITION. Decoding and encoding of command words, 30_encoding.md R110 to R123. The decoder is total on every 32-bit
word: it takes the opcode, then asks that the row's must-be-zero bits (the third column of R120) are zero, then pulls the
fields out. `encodingTable` holds the match and mask columns of R120 as the spec prints them. -/

namespace Sys2Proof

/-- `w[hi:lo]`, an unsigned number (R7). -/
def bits (w : Word) (hi lo : Nat) : Nat :=
  w.toNat / 2 ^ lo % 2 ^ (hi + 1 - lo)

/-- `w[hi:lo]` as a byte, for the IH and IL fields (R114). -/
def bitsByte (w : Word) (hi lo : Nat) : Byte :=
  BitVec.ofNat 8 (bits w hi lo)

/-- Why a word is illegal (R121). -/
inductive DecodeError where
  /-- Its opcode is not in R119. -/
  | unassignedOpcode
  /-- A must-be-zero bit of R120 is 1. -/
  | mustBeZeroBit
  deriving DecidableEq, Repr

/-- Accept `i` when the row's must-be-zero bits are zero (R121). -/
def ifZero (zero : Bool) (i : Instr) : Except DecodeError Instr :=
  if zero then .ok i else .error .mustBeZeroBit

/-- The decoder (R119 to R122). It follows R119's table, which lists 31 opcodes and so leaves 225 unassigned, where R121
counts 226 (DEDUCED, log 19). The D, A and B fields are 23:20, 19:16 and 15:12 (R113), T, MASK, LVL and VER are 11, 10:8,
7:6 and 5:0 (R115), ROW and COL are 23:12 and 11:0 (R116). -/
def decode (w : Word) : Except DecodeError Instr :=
  match bits w 31 24 with
  | 0x00 => ifZero (bits w 23 0 == 0) .nop
  | 0x10 => ifZero (bits w 23 16 == 0) (.gexp (bits w 15 0))
  | 0x11 => ifZero (bits w 23 8 == 0) (.glog (bitsByte w 7 0))
  | 0x12 => ifZero (bits w 23 16 == 0) (.gmul (bitsByte w 15 8) (bitsByte w 7 0))
  | 0x20 => ifZero (bits w 19 0 == 0) (.pclr (bits w 23 20))
  | 0x21 => ifZero (bits w 19 8 == 0) (.ppush (bits w 23 20) (bitsByte w 7 0))
  | 0x22 => ifZero (bits w 19 16 == 0) (.prd (bits w 23 20) (bits w 15 0))
  | 0x23 => ifZero (bits w 19 0 == 0) (.plen (bits w 23 20))
  | 0x24 => .ok (.pnorm (bits w 23 20) (bits w 19 16) (bits w 15 0))
  | 0x30 => ifZero (bits w 11 0 == 0) (.pmul (bits w 23 20) (bits w 19 16) (bits w 15 12))
  | 0x31 => ifZero (bits w 11 0 == 0) (.pmod (bits w 23 20) (bits w 19 16) (bits w 15 12))
  | 0x32 => ifZero (bits w 19 16 == 0) (.pgen (bits w 23 20) (bits w 15 0))
  | 0x33 => .ok (.rsec (bits w 23 20) (bits w 19 16) (bits w 15 0))
  | 0x40 => ifZero (bits w 23 0 == 0) .cclr
  | 0x41 => ifZero (bits w 23 8 == 0) (.cpush (bitsByte w 7 0))
  | 0x42 => ifZero (bits w 23 16 == 0) (.crd (bits w 15 0))
  | 0x43 => ifZero (bits w 23 20 == 0 && bits w 15 0 == 0) (.cpushp (bits w 19 16))
  | 0x44 => ifZero (bits w 23 0 == 0) .clen
  | 0x50 => ifZero (bits w 23 6 == 0) (.mskel (bits w 5 0))
  | 0x51 => ifZero (bits w 23 12 == 0 && bits w 5 0 == 0)
      (.mfmt (bits w 11 11 == 1) (Fin.ofNat 8 (bits w 10 8)) (Fin.ofNat 4 (bits w 7 6)))
  | 0x52 => ifZero (bits w 23 12 == 0 && bits w 10 0 == 0) (.mveri (bits w 11 11 == 1))
  | 0x53 => ifZero (bits w 23 12 == 0 && bits w 10 0 == 0) (.mdark (bits w 11 11 == 1))
  | 0x54 => ifZero (bits w 23 11 == 0 && bits w 7 0 == 0) (.mdata (Fin.ofNat 8 (bits w 10 8)))
  | 0x55 => ifZero (bits w 23 12 == 0)
      (.mbuild (bits w 11 11 == 1) (Fin.ofNat 8 (bits w 10 8)) (Fin.ofNat 4 (bits w 7 6)) (bits w 5 0))
  | 0x56 => ifZero (bits w 23 0 == 0) .mpen
  | 0x57 => ifZero (bits w 23 8 == 0) (.msel (Fin.ofNat 4 (bits w 7 6)) (bits w 5 0))
  | 0x58 => ifZero (bits w 23 8 == 0) (.mauto (Fin.ofNat 4 (bits w 7 6)) (bits w 5 0))
  | 0x60 => .ok (.mrd (bits w 23 12) (bits w 11 0))
  | 0x61 => .ok (.mctx (bits w 23 12) (bits w 11 0))
  | 0x62 => .ok (.mbrd (bits w 23 12) (bits w 11 0))
  | 0x63 => ifZero (bits w 23 0 == 0) .mbsize
  | _ => .error .unassignedOpcode

/-- A word from its opcode byte and the number its low 24 bits hold (R111). -/
def wordOf (opc low : Nat) : Word :=
  BitVec.ofNat 32 (opc * 2 ^ 24 + low)

/-- The number a T bit contributes to the word (R115). -/
def testBitField (t : Bool) : Nat :=
  if t then 2 ^ 11 else 0

/-- The encoder: each operand in its field and every other bit zero (R120, R124). -/
def encode (i : Instr) : Word :=
  match i with
  | .nop => wordOf 0x00 0
  | .gexp n => wordOf 0x10 n
  | .glog a => wordOf 0x11 a.toNat
  | .gmul a b => wordOf 0x12 (a.toNat * 2 ^ 8 + b.toNat)
  | .pclr d => wordOf 0x20 (d * 2 ^ 20)
  | .ppush d b => wordOf 0x21 (d * 2 ^ 20 + b.toNat)
  | .prd d idx => wordOf 0x22 (d * 2 ^ 20 + idx)
  | .plen d => wordOf 0x23 (d * 2 ^ 20)
  | .pnorm d a shift => wordOf 0x24 (d * 2 ^ 20 + a * 2 ^ 16 + shift)
  | .pmul d a b => wordOf 0x30 (d * 2 ^ 20 + a * 2 ^ 16 + b * 2 ^ 12)
  | .pmod d a b => wordOf 0x31 (d * 2 ^ 20 + a * 2 ^ 16 + b * 2 ^ 12)
  | .pgen d n => wordOf 0x32 (d * 2 ^ 20 + n)
  | .rsec d a n => wordOf 0x33 (d * 2 ^ 20 + a * 2 ^ 16 + n)
  | .cclr => wordOf 0x40 0
  | .cpush b => wordOf 0x41 b.toNat
  | .crd idx => wordOf 0x42 idx
  | .cpushp a => wordOf 0x43 (a * 2 ^ 16)
  | .clen => wordOf 0x44 0
  | .mskel v => wordOf 0x50 v
  | .mfmt t mask lvl => wordOf 0x51 (testBitField t + mask.val * 2 ^ 8 + lvl.val * 2 ^ 6)
  | .mveri t => wordOf 0x52 (testBitField t)
  | .mdark t => wordOf 0x53 (testBitField t)
  | .mdata mask => wordOf 0x54 (mask.val * 2 ^ 8)
  | .mbuild t mask lvl v => wordOf 0x55 (testBitField t + mask.val * 2 ^ 8 + lvl.val * 2 ^ 6 + v)
  | .mpen => wordOf 0x56 0
  | .msel lvl v => wordOf 0x57 (lvl.val * 2 ^ 6 + v)
  | .mauto lvl v => wordOf 0x58 (lvl.val * 2 ^ 6 + v)
  | .mrd row col => wordOf 0x60 (row * 2 ^ 12 + col)
  | .mctx row col => wordOf 0x61 (row * 2 ^ 12 + col)
  | .mbrd row col => wordOf 0x62 (row * 2 ^ 12 + col)
  | .mbsize => wordOf 0x63 0

/-- The match and mask of a command's row, as the last two columns of R120 print them. -/
def Instr.matchMask (i : Instr) : Word × Word :=
  match i with
  | .nop => (0x00000000, 0xFFFFFFFF)
  | .gexp _ => (0x10000000, 0xFFFF0000)
  | .glog _ => (0x11000000, 0xFFFFFF00)
  | .gmul _ _ => (0x12000000, 0xFFFF0000)
  | .pclr _ => (0x20000000, 0xFF0FFFFF)
  | .ppush _ _ => (0x21000000, 0xFF0FFF00)
  | .prd _ _ => (0x22000000, 0xFF0F0000)
  | .plen _ => (0x23000000, 0xFF0FFFFF)
  | .pnorm _ _ _ => (0x24000000, 0xFF000000)
  | .pmul _ _ _ => (0x30000000, 0xFF000FFF)
  | .pmod _ _ _ => (0x31000000, 0xFF000FFF)
  | .pgen _ _ => (0x32000000, 0xFF0F0000)
  | .rsec _ _ _ => (0x33000000, 0xFF000000)
  | .cclr => (0x40000000, 0xFFFFFFFF)
  | .cpush _ => (0x41000000, 0xFFFFFF00)
  | .crd _ => (0x42000000, 0xFFFF0000)
  | .cpushp _ => (0x43000000, 0xFFF0FFFF)
  | .clen => (0x44000000, 0xFFFFFFFF)
  | .mskel _ => (0x50000000, 0xFFFFFFC0)
  | .mfmt _ _ _ => (0x51000000, 0xFFFFF03F)
  | .mveri _ => (0x52000000, 0xFFFFF7FF)
  | .mdark _ => (0x53000000, 0xFFFFF7FF)
  | .mdata _ => (0x54000000, 0xFFFFF8FF)
  | .mbuild _ _ _ _ => (0x55000000, 0xFFFFF000)
  | .mpen => (0x56000000, 0xFFFFFFFF)
  | .msel _ _ => (0x57000000, 0xFFFFFF00)
  | .mauto _ _ => (0x58000000, 0xFFFFFF00)
  | .mrd _ _ => (0x60000000, 0xFF000000)
  | .mctx _ _ => (0x61000000, 0xFF000000)
  | .mbrd _ _ => (0x62000000, 0xFF000000)
  | .mbsize => (0x63000000, 0xFFFFFFFF)

/-- One command of each row, in the order of R120, with every operand zero. -/
def rowRepresentatives : List Instr :=
  [.nop, .gexp 0, .glog 0, .gmul 0 0, .pclr 0, .ppush 0 0, .prd 0 0, .plen 0, .pnorm 0 0 0,
   .pmul 0 0 0, .pmod 0 0 0, .pgen 0 0, .rsec 0 0 0, .cclr, .cpush 0, .crd 0, .cpushp 0, .clen,
   .mskel 0, .mfmt false 0 0, .mveri false, .mdark false, .mdata 0, .mbuild false 0 0 0, .mpen,
   .msel 0 0, .mauto 0 0, .mrd 0 0, .mctx 0 0, .mbrd 0 0, .mbsize]

/-- The match and mask columns of R120, row by row. -/
def encodingTable : List (Word × Word) :=
  rowRepresentatives.map Instr.matchMask

/-- The decoder on a word given by its bits as spec/opcode_table.json numbers them (every row is one 32-bit word). -/
def decodeTableWord (nbits w : Nat) : Option Instr :=
  match decode (BitVec.ofNat 32 (w % 2 ^ nbits)) with
  | .ok i => some i
  | .error _ => none

end Sys2Proof
end

