-- ==== Sys2Proof/Machine/Codeword.lean ====
section
/-! DEFINITION. The codeword buffer commands, 44_codeword.md R221 to R225. -/

namespace Sys2Proof.Machine

/-- CCLR (R221). -/
def execCclr (s : State) : Host.Outcome State Fault Refusal :=
  finish s (.ok (s.setCw []))

/-- CPUSH byte (R222). -/
def execCpush (b : Byte) (s : State) : Host.Outcome State Fault Refusal :=
  finish s do
    require (s.cw.length < CWMAX) .overflow
    let l := s.cw ++ [b]
    return (s.setCw l).setResult l.length

/-- CRD idx (R223). -/
def execCrd (idx : Nat) (s : State) : Host.Outcome State Fault Refusal :=
  finish s do
    requireBelow idx s.cw.length
    return s.setResult (s.cw.getD idx 0).toNat

/-- CPUSHP pA (R224): the list goes in raw. -/
def execCpushp (a : Nat) (s : State) : Host.Outcome State Fault Refusal :=
  finish s do
    let a ← bufferIndex a
    let l := s.cw ++ s.poly a
    require (l.length ≤ CWMAX) .overflow
    return (s.setCw l).setResult l.length

/-- CLEN (R225). -/
def execClen (s : State) : Host.Outcome State Fault Refusal :=
  finish s (.ok (s.setResult s.cw.length))

end Sys2Proof.Machine
end

