-- ==== Sys2Proof/Machine/GfScalar.lean ====
section
/-! DEFINITION. The GF(256) scalar commands, 41_gf_scalar.md R155 to R157. -/

namespace Sys2Proof.Machine

/-- GEXP n (R155). -/
def execGexp (n : Nat) (s : State) : Host.Outcome State Fault Refusal :=
  finish s (.ok (s.setResult (gexp n).toNat))

/-- GLOG a (R156). -/
def execGlog (a : Byte) (s : State) : Host.Outcome State Fault Refusal :=
  finish s do
    let l ← glog a
    return s.setResult l

/-- GMUL a, b (R157). -/
def execGmul (a b : Byte) (s : State) : Host.Outcome State Fault Refusal :=
  finish s do
    let z ← gfMul a b
    return s.setResult z.toNat

end Sys2Proof.Machine
end

