-- ==== Sys2Proof/Machine/MaskEval.lean ====
section
/-! DEFINITION. The mask evaluation commands, 46_mask_eval.md R300, R302, R303. -/

namespace Sys2Proof.Machine

/-- Write a score to PEN1 to PEN4 and its total to PENT (R48). -/
def State.setScore (s : State) (q : Score) : State :=
  s.setPenalties q.q1 q.q2 q.q3 q.q4

/-- MPEN (R300). -/
def execMpen (s : State) : Host.Outcome State Fault Refusal :=
  finish s do
    s.requireMatrix
    s.requireComplete
    let q := score s.size s.mat
    return (s.setScore q).setResult q.total

/-- MSEL v, lvl (R302): MAT is left as the last trial, the mask-7 test build. -/
def execMsel (lvl : Fin 4) (v : Nat) (s : State) : Host.Outcome State Fault Refusal :=
  finish s do
    requireVersion v
    let best := select s.cfg s.cw v lvl
    return ((s.startMatrix v (build s.cfg s.cw v lvl 7 true)).setScore best.2).setResult best.1.val

/-- MAUTO v, lvl (R303): MAT is the winning mask's final build, PEN its test build's scores. -/
def execMauto (lvl : Fin 4) (v : Nat) (s : State) : Host.Outcome State Fault Refusal :=
  finish s do
    requireVersion v
    let best := select s.cfg s.cw v lvl
    return ((s.startMatrix v (build s.cfg s.cw v lvl best.1 false)).setScore best.2).setResult best.1.val

end Sys2Proof.Machine
end

