-- ==== Sys2Proof/Machine/MatrixBuild.lean ====
section
/-! DEFINITION. The symbol matrix commands, 45_matrix_build.md R248, R253, R256, R258, R262, R264. -/

namespace Sys2Proof.Machine

/-- MSKEL v (R248). -/
def execMskel (v : Nat) (s : State) : Host.Outcome State Fault Refusal :=
  finish s do
    requireVersion v
    return (s.startMatrix v (skeleton v)).setResult (sideOf v)

/-- MFMT lvl, mask, test (R253): RESULT is the word even for cells already set. -/
def execMfmt (t : Bool) (mask : Fin 8) (lvl : Fin 4) (s : State) : Host.Outcome State Fault Refusal :=
  finish s do
    s.requireMatrix
    let w := formatWord lvl mask t
    return (s.setMat (placeFormat s.size s.mat w)).setResult w

/-- MVERI test (R256): below version 7 no cell is written and RESULT is 0. -/
def execMveri (t : Bool) (s : State) : Host.Outcome State Fault Refusal :=
  finish s do
    s.requireMatrix
    if s.ver < 7 then
      return s.setResult 0
    else
      let w := versionWord s.cfg s.ver t
      return (s.setMat (placeVersion s.size s.mat w)).setResult w

/-- MDARK test (R258): RESULT is the value intended even when the cell was already set. -/
def execMdark (t : Bool) (s : State) : Host.Outcome State Fault Refusal :=
  finish s do
    s.requireMatrix
    let v := darkColour s.cfg t
    return (s.setMat (placeDark s.size s.mat v)).setResult (bit v.isDark)

/-- MDATA mask (R262): RESULT is the number of cells filled. -/
def execMdata (mask : Fin 8) (s : State) : Host.Outcome State Fault Refusal :=
  finish s do
    s.requireMatrix
    return (s.setMat (placeData s.size mask s.cw s.mat)).setResult (zigzag s.size s.mat).length

/-- MBUILD v, lvl, mask, test (R264). -/
def execMbuild (t : Bool) (mask : Fin 8) (lvl : Fin 4) (v : Nat) (s : State) : Host.Outcome State Fault Refusal :=
  finish s do
    requireVersion v
    return (s.startMatrix v (build s.cfg s.cw v lvl mask t)).setResult (buildCount s.cfg v lvl mask t)

end Sys2Proof.Machine
end

