-- ==== Sys2Proof/Machine/MatrixQuery.lean ====
section
/-! DEFINITION. The matrix queries, 47_matrix_query.md R321, R323, R325, R327. None changes the matrix (R328). -/

namespace Sys2Proof.Machine

/-- MRD row, col (R321): works on an incomplete matrix. -/
def execMrd (row col : Nat) (s : State) : Host.Outcome State Fault Refusal :=
  finish s do
    s.requireMatrix
    requireInside row col s.size
    return s.setResult (cellAt s.mat row col).code

/-- MCTX row, col (R323). -/
def execMctx (row col : Nat) (s : State) : Host.Outcome State Fault Refusal :=
  finish s do
    s.requireMatrix
    s.requireComplete
    requireInside row col s.size
    return s.setResult (ctx s.size s.mat row col)

/-- MBRD row, col in bordered coordinates (R327). -/
def execMbrd (row col : Nat) (s : State) : Host.Outcome State Fault Refusal :=
  finish s do
    s.requireMatrix
    s.requireComplete
    requireInside row col s.borderedSide
    return s.setResult (s.bordered row col)

/-- MBSIZE (R325). -/
def execMbsize (s : State) : Host.Outcome State Fault Refusal :=
  finish s do
    s.requireMatrix
    s.requireComplete
    return s.setResult s.borderedSide

end Sys2Proof.Machine
end

