-- ==== Sys2Proof/Machine/PolyArith.lean ====
section
/-! DEFINITION. The polynomial arithmetic and Reed-Solomon commands, 43_poly_arith.md R192, R195, R197, R199. Operands are
read in full, A before B, before the destination is written (R190). -/

namespace Sys2Proof.Machine

/-- PMUL pD, pA, pB (R192). -/
def execPmul (d a b : Nat) (s : State) : Host.Outcome State Fault Refusal :=
  finish s do
    let d ← bufferIndex d
    let a ← bufferIndex a
    let b ← bufferIndex b
    let p ← s.operand a
    let q ← s.operand b
    let r ← pmul p q
    return (s.setPoly d r).setResult r.length

/-- PMOD pD, pA, pB (R195). -/
def execPmod (d a b : Nat) (s : State) : Host.Outcome State Fault Refusal :=
  finish s do
    let d ← bufferIndex d
    let a ← bufferIndex a
    let b ← bufferIndex b
    let p ← s.operand a
    let q ← s.operand b
    let r ← pmod p q
    return (s.setPoly d r).setResult r.length

/-- PGEN pD, n (R197). -/
def execPgen (d n : Nat) (s : State) : Host.Outcome State Fault Refusal :=
  finish s do
    let d ← bufferIndex d
    let r ← gen n
    return (s.setPoly d r).setResult (n + 1)

/-- RSEC pD, pA, n (R199). -/
def execRsec (d a n : Nat) (s : State) : Host.Outcome State Fault Refusal :=
  finish s do
    let d ← bufferIndex d
    let a ← bufferIndex a
    let e ← rsec (s.poly a) n
    return (s.setPoly d e).setResult n

end Sys2Proof.Machine
end

