-- ==== Sys2Proof/Machine/PolyBuffer.lean ====
section
/-! DEFINITION. The polynomial buffer commands, 42_poly_buffer.md R171 to R175. -/

namespace Sys2Proof.Machine

/-- PCLR pD (R171). -/
def execPclr (d : Nat) (s : State) : Host.Outcome State Fault Refusal :=
  finish s do
    let d ← bufferIndex d
    return s.setPoly d []

/-- PPUSH pD, byte (R172). -/
def execPpush (d : Nat) (b : Byte) (s : State) : Host.Outcome State Fault Refusal :=
  finish s do
    let d ← bufferIndex d
    require ((s.poly d).length < PMAX) .overflow
    let l := s.poly d ++ [b]
    return (s.setPoly d l).setResult l.length

/-- PRD pD, idx (R173). -/
def execPrd (d idx : Nat) (s : State) : Host.Outcome State Fault Refusal :=
  finish s do
    let d ← bufferIndex d
    requireBelow idx (s.poly d).length
    return s.setResult ((s.poly d).getD idx 0).toNat

/-- PLEN pD (R174). -/
def execPlen (d : Nat) (s : State) : Host.Outcome State Fault Refusal :=
  finish s do
    let d ← bufferIndex d
    return s.setResult (s.poly d).length

/-- PNORM pD, pA, shift (R175). -/
def execPnorm (d a shift : Nat) (s : State) : Host.Outcome State Fault Refusal :=
  finish s do
    let d ← bufferIndex d
    let a ← bufferIndex a
    let r ← construct (s.poly a) shift
    return (s.setPoly d r).setResult r.length

end Sys2Proof.Machine
end

