-- ==== Sys2Proof/Machine/System.lean ====
section
/-! DEFINITION. The system command, 40_system.md R144. -/

namespace Sys2Proof.Machine

/-- NOP (R144). -/
def execNop (s : State) : Host.Outcome State Fault Refusal :=
  finish s (.ok s)

end Sys2Proof.Machine
end

