-- ==== Sys2Proof/Machine/Dispatch.lean ====
section
/-! DEFINITION. `exec`: one arm per command, each a call of the command's meaning. -/

namespace Sys2Proof.Machine

def exec (i : Instr) (s : State) : Host.Outcome State Fault Refusal :=
  match i with
  | .nop => Sys2Proof.Machine.execNop s
  | .gexp n => Sys2Proof.Machine.execGexp n s
  | .glog a => Sys2Proof.Machine.execGlog a s
  | .gmul a b => Sys2Proof.Machine.execGmul a b s
  | .pclr d => Sys2Proof.Machine.execPclr d s
  | .ppush d b => Sys2Proof.Machine.execPpush d b s
  | .prd d idx => Sys2Proof.Machine.execPrd d idx s
  | .plen d => Sys2Proof.Machine.execPlen d s
  | .pnorm d a shift => Sys2Proof.Machine.execPnorm d a shift s
  | .pmul d a b => Sys2Proof.Machine.execPmul d a b s
  | .pmod d a b => Sys2Proof.Machine.execPmod d a b s
  | .pgen d n => Sys2Proof.Machine.execPgen d n s
  | .rsec d a n => Sys2Proof.Machine.execRsec d a n s
  | .cclr => Sys2Proof.Machine.execCclr s
  | .cpush b => Sys2Proof.Machine.execCpush b s
  | .crd idx => Sys2Proof.Machine.execCrd idx s
  | .cpushp a => Sys2Proof.Machine.execCpushp a s
  | .clen => Sys2Proof.Machine.execClen s
  | .mskel v => Sys2Proof.Machine.execMskel v s
  | .mfmt t mask lvl => Sys2Proof.Machine.execMfmt t mask lvl s
  | .mveri t => Sys2Proof.Machine.execMveri t s
  | .mdark t => Sys2Proof.Machine.execMdark t s
  | .mdata mask => Sys2Proof.Machine.execMdata mask s
  | .mbuild t mask lvl v => Sys2Proof.Machine.execMbuild t mask lvl v s
  | .mpen => Sys2Proof.Machine.execMpen s
  | .msel lvl v => Sys2Proof.Machine.execMsel lvl v s
  | .mauto lvl v => Sys2Proof.Machine.execMauto lvl v s
  | .mrd row col => Sys2Proof.Machine.execMrd row col s
  | .mctx row col => Sys2Proof.Machine.execMctx row col s
  | .mbrd row col => Sys2Proof.Machine.execMbrd row col s
  | .mbsize => Sys2Proof.Machine.execMbsize s

end Sys2Proof.Machine
end

