-- ==== Sys2Proof/Machine/Engine.lean ====
section
/-! DEFINITION. The engine (40_system.md R141, R143) and the events of the surroundings. -/

namespace Sys2Proof.Machine

/-- Execution of a pending word (R143): ILLEGAL when no row matches, else the command. -/
def executeWord (w : Word) (s : State) : Host.Outcome State Fault Refusal :=
  match decode w with
  | .error _ => finish s (.error .illegal)
  | .ok i => exec i s

/-- The engine's turn: it completes the pending command, which uses the CTRL.BORDER it read when it started
(`State.borderRead`: now, if no `start` came before), and is idle when there is none (R141, R358) and while the reset input
is asserted (R380). A CTRL write before the start and one between start and completion are both runs of the model (R392,
log 20). -/
def engineTurn (s : State) : Host.Outcome State Fault Refusal :=
  if s.resetLine then .next s
  else
    match s.pending with
    | none => .next s
    | some w => executeWord w s

/-- One event (R5, R350: one at a time, in the order given). -/
def perform (e : Input) (s : State) : Host.Outcome State Fault Refusal :=
  match e with
  | .access a => .next (s.hostAccess a)
  | .start => .next s.start
  | .engine => engineTurn s
  | .resetPin asserted => .next (s.driveReset asserted)

/-- One step of the machine: the next event happens, and when no event is left the engine moves. -/
def advance (s : State) : Host.Outcome State Fault Refusal :=
  match s.inputs with
  | [] => engineTurn s
  | e :: rest => perform e { s with inputs := rest }

/-- `s` with the word `w` accepted into the pending slot (R140), not yet started, and the engine's turn next, before any event
to come. -/
def State.withPending (s : State) (w : Word) : State :=
  { s with pending := some w, started := none, done := false, resetLine := false, inputs := .engine :: s.inputs }

end Sys2Proof.Machine
end

