-- ==== Sys2Proof/Machine/Step.lean ====
section
/-! DEFINITION. One step, and the placing of a command where the next step runs it. RSQR fetches nothing (10_state.md R31):
its commands come from the host's CMD writes, so the next command is the word in the pending slot (log 8). -/

namespace Sys2Proof.Machine

/-- One step of RSQR: the host, the engine and the reset input in the order the state's inputs give (R5). -/
def step (s : State) : Host.Outcome State Fault Refusal :=
  advance s

/-- `s` with the command word of bits `w` (every bit above `nbits` zero) accepted, so that the next step executes it. -/
def State.withFetchWord (s : State) (nbits w : Nat) : State :=
  s.withPending (BitVec.ofNat 32 (w % 2 ^ nbits))

end Sys2Proof.Machine
end

