-- ==== Sys2Proof/Machine/HostProgram.lean ====
section
/-! DEFINITION. Host programs: the directives of 30_encoding.md R126 and the pseudo-commands of R127 as the events they make
happen, and the assembler's level names (R125). Nothing here is a part of RSQR's own state. -/

namespace Sys2Proof.Machine

/-- The four level names. -/
inductive LevelName where
  | L
  | M
  | Q
  | H
  deriving DecidableEq, Repr

/-- The 2-bit code of a level name: `L` = 1, `M` = 0, `Q` = 3, `H` = 2 (R125). -/
def LevelName.code (l : LevelName) : Fin 4 :=
  match l with
  | .L => 1
  | .M => 0
  | .Q => 3
  | .H => 2

/-- The level name of a code. -/
def LevelName.ofCode (c : Fin 4) : LevelName :=
  match c with
  | 0 => .M
  | 1 => .L
  | 2 => .H
  | 3 => .Q

/-- A host directive (R126). -/
inductive Directive where
  /-- `WRITE off, value`. -/
  | write (off : Nat) (value : Word)
  /-- `READ off -> name`. -/
  | read (off : Nat)
  /-- `WAIT`, with the number of polls that still find `BUSY = 1`. -/
  | wait (polls : Nat)
  /-- A bare command line, with the polls its implicit `WAIT` makes. -/
  | command (i : Instr) (polls : Nat)
  deriving DecidableEq, Repr

/-- A host write of a register. -/
def writeEvent (base off : Nat) (value : Word) : Input :=
  .access (.write (base + off) 32 value)

/-- A host read of a register. -/
def readEvent (base off : Nat) : Input :=
  .access (.read (base + off) 32)

/-- `WAIT` reads STATUS until `BUSY = 0`: some polls, the completion, and the poll that finds `BUSY = 0` (R126, R385). -/
def waitEvents (base polls : Nat) : List Input :=
  List.replicate polls (readEvent base 0x04) ++ [.engine, readEvent base 0x04]

/-- The events of a bare command line `C`: `WRITE 0x00, enc(C)`, then `WAIT` (R126). -/
def commandEvents (base polls : Nat) (i : Instr) : List Input :=
  writeEvent base 0x00 (encode i) :: waitEvents base polls

/-- The events of a directive (R126). DESIGN CHOICE (log 16): the engine's turn stands only inside a `WAIT`, its own or a
bare line's, so the accesses between a raw `WRITE 0x00` and the next `WAIT` find `BUSY = 1` (but after a reset among them).
R5, R350 and R394 let the command complete at any point after its acceptance; those other orders are lists of events that
`State.inputs` also holds and `step` performs. -/
def Directive.events (base : Nat) (d : Directive) : List Input :=
  match d with
  | .write off value => [writeEvent base off value]
  | .read off => [readEvent base off]
  | .wait polls => waitEvents base polls
  | .command i polls => commandEvents base polls i

/-- The events of a listing, one directive after the other: one of the orders R5, R350 and R394 leave open, with the engine's
turns only inside the `WAIT`s, and with no separate `start`, so a command starts and completes at its `WAIT` (DESIGN CHOICE,
log 16, as in `Directive.events`). -/
def programEvents (base : Nat) (ds : List Directive) : List Input :=
  ds.flatMap (Directive.events base)

/-- `PLOAD pD, [b0, …, bk]` (R127). -/
def pload (d : Nat) (bs : List Byte) : List Instr :=
  .pclr d :: bs.map (fun b => .ppush d b)

/-- `CLOAD [b0, …, bk]` (R127). -/
def cload (bs : List Byte) : List Instr :=
  .cclr :: bs.map (fun b => .cpush b)

/-- `PCOPY pD, pA`, a normalizing copy (R127). -/
def pcopy (d a : Nat) : Instr :=
  .pnorm d a 0

/-- `PSHL pD, pA, k`, multiply by x^k (R127). -/
def pshl (d a k : Nat) : Instr :=
  .pnorm d a k

/-- `SRST`: the soft reset write (R127). -/
def srst : Directive :=
  .write 0x0C 0x00000002

/-- `ACK`: clear DONE, ERR and OVR (R127). -/
def ack : Directive :=
  .write 0x04 0x0000000E

end Sys2Proof.Machine
end

