-- ==== Sys2Proof/Safety.lean ====
section
/-! DEFINITION. What a good state of RSQR is, in the terms claims use: the ranges and relations that the spec gives its
state, each a predicate on every state. RSQR never stops (60_exceptions.md R344, R347), so a safe run is one whose states
satisfy them. -/

namespace Sys2Proof.Machine

/-- Every polynomial buffer holds at most PMAX coefficients (R51). -/
def State.polysBounded (s : State) : Prop :=
  s.polys.p0.length ≤ PMAX ∧ s.polys.p1.length ≤ PMAX ∧ s.polys.p2.length ≤ PMAX ∧ s.polys.p3.length ≤ PMAX

/-- The codeword buffer holds at most CWMAX bytes (R52). -/
def State.cwBounded (s : State) : Prop :=
  s.cw.length ≤ CWMAX

/-- ERR = 0 implies ERRCODE = 0 (R40), and ERR = 1 comes with a code that R340 lists, 1 to 9. -/
def State.errcodeConsistent (s : State) : Prop :=
  (s.err = false → s.errcode = 0) ∧ (s.err = true → 1 ≤ s.errcode.toNat ∧ s.errcode.toNat ≤ 9)

/-- DONE is 0 while a command is pending: acceptance clears it and only a completion sets it (R37). -/
def State.doneOnlyWhenIdle (s : State) : Prop :=
  s.pending.isSome = true → s.done = false

/-- Only a pending command has started (R141). -/
def State.startedOnlyWhenPending (s : State) : Prop :=
  s.started.isSome = true → s.pending.isSome = true

/-- PENT is the total of PEN1 to PEN4 (R48). -/
def State.penaltyTotal (s : State) : Prop :=
  s.pent = s.pen1 + s.pen2 + s.pen3 + s.pen4

/-- A square matrix of the given side. -/
def squareGrid (size : Nat) (g : Grid) : Prop :=
  g.length = size ∧ ∀ row ∈ g, row.length = size

/-- MVALID, VER, SIZE and MAT fit together (R53): no matrix and VER = SIZE = 0, or a version 1..40, SIZE = 4*VER + 17 and
SIZE rows of SIZE cells. -/
def State.matrixShape (s : State) : Prop :=
  (s.mvalid = false → s.ver = 0 ∧ s.size = 0) ∧
  (s.mvalid = true → 1 ≤ s.ver ∧ s.ver ≤ 40 ∧ s.size = 4 * s.ver + 17 ∧ squareGrid s.size s.mat)

/-- While the reset input is asserted the state is the reset state (R380). -/
def State.resetHolds (s : State) : Prop :=
  s.resetLine = true → s = s.cleared

/-- BASE is a multiple of 64 (R80). -/
def State.baseAligned (s : State) : Prop :=
  s.cfg.base % 64 = 0

/-- The invariant of RSQR's state. -/
structure State.Inv (s : State) : Prop where
  polysBounded : s.polysBounded
  cwBounded : s.cwBounded
  errcodeConsistent : s.errcodeConsistent
  doneOnlyWhenIdle : s.doneOnlyWhenIdle
  startedOnlyWhenPending : s.startedOnlyWhenPending
  penaltyTotal : s.penaltyTotal
  matrixShape : s.matrixShape
  resetHolds : s.resetHolds
  baseAligned : s.baseAligned

/-- Column 6, which the zigzag skips (R259), holds no UNSET cell in any matrix that was started (R262). -/
def State.columnSixSet (s : State) : Prop :=
  s.mvalid = true → ∀ r, r < s.size → (cellAt s.mat r 6).isUnset = false

/-- The reset input is released and the command `w` is pending: the engine may move. -/
def State.ready (s : State) (w : Word) : Prop :=
  s.resetLine = false ∧ s.pending = some w

/-- The engine moves in the next step, and `rest` are the events after that. -/
def State.engineNext (s : State) (rest : List Input) : Prop :=
  (s.inputs = [] ∧ rest = []) ∨ s.inputs = .engine :: rest

/-- The event resets the block, or could: a level of the reset input (R380), or a write with SRST = 1 to CTRL (R381). -/
def Input.resets (base : Nat) (e : Input) : Bool :=
  match e with
  | .resetPin _ => true
  | .access (.write addr _ w) => addr == base + 0x0C && w.getLsbD 1
  | .access (.read _ _) => false
  | .start => false
  | .engine => false

/-- The state after the command `w` faulted with a code from `s`: exactly what R345 lists is written. -/
def State.afterFault (s : State) (w : Word) (code : BitVec 4) : State :=
  { s with err := true, errcode := code, errcmd := w, pending := none, started := none, done := true }

/-- What R58 says the host and the engine find after a reset, of a block built with `cfg`. -/
structure State.IsReset (s : State) (cfg : Config) : Prop where
  status : s.statusWord = 0
  result : s.result = 0
  ctrl : s.ctrl = 0
  errcmd : s.errcmd = 0
  minfo : s.minfo = 0
  matrix : s.mvalid = false ∧ s.ver = 0 ∧ s.size = 0
  cwlen : s.cwlen = 0 ∧ s.cw = []
  penalties : s.pent = 0 ∧ s.pen1 = 0 ∧ s.pen2 = 0 ∧ s.pen3 = 0 ∧ s.pen4 = 0
  constants : s.cfg = cfg ∧ s.readRegister 0x30 = 0x52535101 ∧ s.readRegister 0x34 = paramWord cfg
  pending : s.pending = none ∧ s.started = none
  polys : ∀ k, s.polys.get k = []
  irq : s.irq = false

end Sys2Proof.Machine

namespace Sys2Proof

/-- The commands that write a polynomial buffer, with the buffer's field (42_poly_buffer.md, 43_poly_arith.md). -/
def Instr.polyDestination (i : Instr) : Option Nat :=
  match i with
  | .pclr d | .ppush d _ | .pnorm d _ _ | .pmul d _ _ | .pmod d _ _ | .pgen d _ | .rsec d _ _ => some d
  | _ => none

/-- The commands that write the codeword buffer (44_codeword.md). -/
def Instr.writesCodewords (i : Instr) : Bool :=
  match i with
  | .cclr | .cpush _ | .cpushp _ => true
  | _ => false

/-- The four commands that start a matrix (R53). -/
def Instr.startsMatrix (i : Instr) : Bool :=
  match i with
  | .mskel _ | .mbuild _ _ _ _ | .msel _ _ | .mauto _ _ => true
  | _ => false

/-- The commands that fill cells of the current matrix (R328). -/
def Instr.fillsCells (i : Instr) : Bool :=
  match i with
  | .mfmt _ _ _ | .mveri _ | .mdark _ | .mdata _ => true
  | _ => false

/-- The commands that write the PEN registers (R48). -/
def Instr.writesPenalties (i : Instr) : Bool :=
  match i with
  | .mpen | .msel _ _ | .mauto _ _ => true
  | _ => false

/-- The commands that leave RESULT unchanged when they succeed (R145). -/
def Instr.keepsResult (i : Instr) : Bool :=
  match i with
  | .nop | .pclr _ | .cclr => true
  | _ => false

/-- The matrix queries (47_matrix_query.md). -/
def Instr.isQuery (i : Instr) : Bool :=
  match i with
  | .mrd _ _ | .mctx _ _ | .mbrd _ _ | .mbsize => true
  | _ => false

end Sys2Proof
end

