-- ==== Sys2Proof/Certificates/Slice0/Obligations.lean ====
section
/-! DEFINITION. The statements for the provers. An equation whose right side is a record update says the whole effect and
the whole frame at once: every field that the update does not name is unchanged. A fault equation has the premise that
the command word is in the pending slot, since that word is what ERRCMD records. `started := none` in a completion says
that no execution is under way any more (R141; the record of a start is the model's own field, assumption log 20). -/

open Sys2Proof Sys2Proof.Machine

/-! ### Encoding -/

/-- R120, R124: each operand is placed in its field and every other bit is zero, so decoding gives the command back. -/
def Obligations.DecodeOfEncodeIsTheCommand : Prop :=
  ∀ i : Instr, i.WellFormed → decode (encode i) = .ok i

/-- R122: a word is exactly one command, so a decoded word is the encoding of its command. -/
def Obligations.EveryDecodedWordEncodesBack : Prop :=
  ∀ (w : Word) (i : Instr), decode w = .ok i → i.WellFormed ∧ encode i = w

/-- R122: the decoder accepts exactly the words that match a row of R120, with that row's command, and at most one row
matches any word. -/
def Obligations.DecoderFollowsTheEncodingTable : Prop :=
  ∀ w : Word,
    ((∃ i, decode w = .ok i) ↔ ∃ row ∈ encodingTable, w &&& row.2 = row.1) ∧
    (∀ i, decode w = .ok i → i.matchMask ∈ encodingTable ∧ w &&& i.matchMask.2 = i.matchMask.1) ∧
    ∀ row ∈ encodingTable, ∀ row' ∈ encodingTable, w &&& row.2 = row.1 → w &&& row'.2 = row'.1 → row = row'

/-- R119, R120: words written out from the encodings, one of each format and family. -/
def Obligations.SampleWordsDecode : Prop :=
  decode 0x00000000#32 = .ok .nop ∧
  decode 0x12000307#32 = .ok (.gmul 3 7) ∧
  decode 0x24100002#32 = .ok (.pnorm 1 0 2) ∧
  decode 0x30201000#32 = .ok (.pmul 2 0 1) ∧
  decode 0x43010000#32 = .ok (.cpushp 1) ∧
  decode 0x55000A87#32 = .ok (.mbuild true 2 2 7) ∧
  decode 0x6000D008#32 = .ok (.mrd 13 8) ∧
  decode 0xFF000000#32 = .error .unassignedOpcode ∧
  decode 0x20500001#32 = .error .mustBeZeroBit

/-! ### The step -/

/-- R141, R143, R358: when the engine moves, a step is `exec` of the decoded pending command on the state with the events to
come, and with no command pending it does nothing. R141: where the engine starts a pending command before it completes
it, that step reads CTRL.BORDER once and does nothing else, and with no command pending nothing at all (assumption log 20).
That the engine moves when its turn is the next event, and when no event
is left, is the model's choice (`State.engineNext`, assumption log 3). -/
def Obligations.StepRunsTheDecodedCommand : Prop :=
  (∀ (s : State) (rest : List Input), s.engineNext rest →
    (∀ w i, s.ready w → decode w = .ok i → step s = exec i { s with inputs := rest }) ∧
    (s.pending = none → step s = .next { s with inputs := rest })) ∧
  ∀ (s : State) (rest : List Input), s.inputs = .start :: rest →
    (∀ w, s.ready w → step s = .next { s with inputs := rest, started := some (s.started.getD s.border) }) ∧
    (s.pending = none → step s = .next { s with inputs := rest })

/-- R121: a word whose opcode is unassigned or that has a must-be-zero bit set matches no row, and it faults with ILLEGAL and
no other effect, whatever the state. The model's choices: R121's count of the unassigned opcodes differs from R119's table,
which the decoder follows (assumption log 19), the engine also moves when no event is left (`State.engineNext`, log 3), and
the record of a start is cleared (`started := none` in `State.afterFault`, log 20). -/
def Obligations.IllegalWordFaults : Prop :=
  ∀ (s : State) (w : Word) (rest : List Input), s.engineNext rest → s.ready w →
    (∀ row ∈ encodingTable, w &&& row.2 ≠ row.1) →
    step s = .next (State.afterFault { s with inputs := rest } w 1)

/-- R344, R347 (93_implementation_defined.md U14: "never stuck"): every step from every state answers a next state. -/
def Obligations.StepNeverStops : Prop :=
  ∀ s : State, ∃ t, step s = .next t

/-- R141, R394: with the events of the surroundings that are left and one step more, nothing is pending. Where no reset is
among those events (R382), the pending command is not discarded: after at most as many steps as there are events the engine
moves with that command still pending and everything a command reads but CTRL.BORDER as it was, the BORDER that a started
command has read included, and that step is `exec` of the command. The order of the events is the model's choice (assumption
log 3). -/
def Obligations.PendingCommandIsExecutedInTime : Prop :=
  (∀ s : State, s.resetHolds →
    ∃ t, Host.Core.run core (s.inputs.length + 1) s = .next t ∧ t.pending = none) ∧
  ∀ (s : State) (w : Word), s.ready w → (∀ e ∈ s.inputs, e.resets s.cfg.base = false) →
    ∃ (n : Nat) (u : State) (rest : List Input), n ≤ s.inputs.length ∧ Host.Core.run core n s = .next u ∧
      u.ready w ∧ u.engineNext rest ∧
      u.polys = s.polys ∧ u.cw = s.cw ∧ u.mvalid = s.mvalid ∧ u.ver = s.ver ∧ u.size = s.size ∧ u.mat = s.mat ∧
      u.cfg = s.cfg ∧ u.result = s.result ∧ (s.started.isSome = true → u.started = s.started) ∧
      ∀ i, decode w = .ok i → step u = exec i { u with inputs := rest }

/-! ### The host's accesses and reset -/

/-- R140: a legal CMD write is accepted when nothing is pending, and otherwise leaves no trace but OVR; acceptance does not
decode the word. The model's reading, no clause of R140: the accepted command has not started (`started := none`, assumption
log 20). -/
def Obligations.CmdWriteIssues : Prop :=
  ∀ (s : State) (w : Word) (rest : List Input), s.resetLine = false →
    s.inputs = .access (.write s.cfg.base 32 w) :: rest →
    (s.pending = none → step s = .next { s with inputs := rest, pending := some w, started := none, done := false }) ∧
    (∀ v, s.pending = some v → step s = .next { s with inputs := rest, ovr := true })

/-- R35: the layout of STATUS, its reset value, and a host write of it: bit 1 clears DONE, bit 2 clears ERR and ERRCODE, bit 3
clears OVR, all other bits are ignored and no bit is set. R55: irq is 1 exactly when CTRL.IE and STATUS.DONE read 1, it is 0
after reset, and a W1C of DONE, a CTRL write that sets IE to 0 and an accepted CMD write each leave it 0. -/
def Obligations.StatusLayoutAndClear : Prop :=
  (∀ s : State,
    s.statusWord.getLsbD 0 = s.pending.isSome ∧ s.statusWord.getLsbD 1 = s.done ∧ s.statusWord.getLsbD 2 = s.err ∧
    s.statusWord.getLsbD 3 = s.ovr ∧ s.statusWord.extractLsb' 4 4 = 0#4 ∧ s.statusWord.extractLsb' 8 4 = s.errcode ∧
    s.statusWord.extractLsb' 12 20 = 0#20) ∧
  State.reset.statusWord = 0 ∧
  (∀ (s : State) (w : Word) (rest : List Input), s.resetLine = false →
    s.inputs = .access (.write (s.cfg.base + 0x04) 32 w) :: rest →
    step s = .next { s with
      inputs := rest
      done := if w.getLsbD 1 then false else s.done
      err := if w.getLsbD 2 then false else s.err
      errcode := if w.getLsbD 2 then 0 else s.errcode
      ovr := if w.getLsbD 3 then false else s.ovr }) ∧
  (∀ s : State, s.irq = true ↔ s.ctrl.getLsbD 0 = true ∧ s.statusWord.getLsbD 1 = true) ∧
  State.reset.irq = false ∧
  ∀ (s : State) (w : Word) (rest : List Input), s.resetLine = false →
    (w.getLsbD 1 = true → s.inputs = .access (.write (s.cfg.base + 0x04) 32 w) :: rest →
      ∃ t, step s = .next t ∧ t.irq = false) ∧
    (w.getLsbD 0 = false → s.inputs = .access (.write (s.cfg.base + 0x0C) 32 w) :: rest →
      ∃ t, step s = .next t ∧ t.irq = false) ∧
    (s.pending = none → s.inputs = .access (.write s.cfg.base 32 w) :: rest → ∃ t, step s = .next t ∧ t.irq = false)

/-- R42, R381: a CTRL write with SRST = 0 sets IE and BORDER; one with SRST = 1 is a soft reset and nothing else, and a second
one changes nothing more; CTRL reads IE and BORDER, SRST and the reserved bits read 0, and CTRL is 0 after reset. The
model's choices in the soft reset's equation: MAT and the buffers' storage hold nothing (assumption log 4), the last read's
data and the events to come stay (log 14), and no execution is under way (log 20). -/
def Obligations.CtrlWriteAndSoftReset : Prop :=
  (∀ (s : State) (w : Word) (rest : List Input), s.resetLine = false →
    s.inputs = .access (.write (s.cfg.base + 0x0C) 32 w) :: rest →
    (w.getLsbD 1 = false →
      step s = .next { s with inputs := rest, ie := w.getLsbD 0, border := w.extractLsb' 8 8 }) ∧
    (w.getLsbD 1 = true →
      step s = .next { State.resetWith s.cfg with inputs := rest, busData := s.busData })) ∧
  (∀ (s : State) (w w' : Word), w.getLsbD 1 = true → w'.getLsbD 1 = true →
    (s.writeCtrl w).writeCtrl w' = s.writeCtrl w) ∧
  State.reset.ctrl = 0 ∧
  ∀ s : State,
    s.ctrl.getLsbD 0 = s.ie ∧ s.ctrl.extractLsb' 1 7 = 0#7 ∧ s.ctrl.extractLsb' 8 8 = s.border ∧
    s.ctrl.extractLsb' 16 16 = 0#16

/-- R58: the state after reset, after a hardware reset of any state and after a soft reset of any state. (What R58 calls
unspecified and unobservable is not stated.) The model's choice, no clause of R58: no execution is under way after a reset
(`started = none` in `State.IsReset`, assumption log 20). -/
def Obligations.ResetLeavesTheResetState : Prop :=
  State.reset.IsReset Config.default ∧ (∀ cfg, (State.resetWith cfg).IsReset cfg) ∧
  ∀ s : State, (s.driveReset true).IsReset s.cfg ∧ ∀ w : Word, w.getLsbD 1 = true → (s.writeCtrl w).IsReset s.cfg

/-- R380: asserting the reset input gives the reset state whatever was pending, and so does releasing it; while it is asserted
a read returns 0, a write is ignored and the engine neither starts nor completes a command. The model's choices: the line's
level and the idle engine (assumption log 6), that MAT and the buffers' storage hold nothing (log 4), and that the last
read's data and the events to come stay (log 14), and that no execution is under way (log 20). -/
def Obligations.HardwareResetHoldsTheBlock : Prop :=
  (∀ (s : State) (b : Bool) (rest : List Input), s.inputs = .resetPin b :: rest → (b = true ∨ s.resetLine = true) →
    step s = .next { State.resetWith s.cfg with resetLine := b, busData := s.busData, inputs := rest }) ∧
  ∀ (s : State) (rest : List Input), s.resetLine = true →
    (∀ addr width, s.inputs = .access (.read addr width) :: rest →
      step s = .next { s with busData := 0, inputs := rest }) ∧
    (∀ addr width w, s.inputs = .access (.write addr width w) :: rest → step s = .next { s with inputs := rest }) ∧
    (s.engineNext rest → step s = .next { s with inputs := rest }) ∧
    (s.inputs = .start :: rest → step s = .next { s with inputs := rest })

/-- R82: an access of another width, at an address that is not a multiple of 4, or outside the window is refused: a read
returns 0, a write is ignored, and the state does not change. (Outside the window: the model's reading, assumption log 7.) -/
def Obligations.RefusedAccessHasNoEffect : Prop :=
  ∀ (s : State) (addr width : Nat) (rest : List Input), s.baseAligned →
    (width ≠ 32 ∨ addr % 4 ≠ 0 ∨ addr < s.cfg.base ∨ s.cfg.base + 64 ≤ addr) →
    (s.inputs = .access (.read addr width) :: rest → step s = .next { s with busData := 0, inputs := rest }) ∧
    ∀ w, s.inputs = .access (.write addr width w) :: rest → step s = .next { s with inputs := rest }

/-- R33, R34, R49, R87: a legal read returns the register at its offset and has no side effect, CMD and the reserved offsets
read 0, and a write to an offset other than CMD, STATUS and CTRL is ignored. -/
def Obligations.LegalReadsReturnRegisters : Prop :=
  (∀ (s : State) (off : Nat) (rest : List Input), s.resetLine = false → off < 64 → off % 4 = 0 →
    (s.inputs = .access (.read (s.cfg.base + off) 32) :: rest →
      step s = .next { s with busData := s.readRegister off, inputs := rest }) ∧
    ∀ w, off ≠ 0x00 → off ≠ 0x04 → off ≠ 0x0C → s.inputs = .access (.write (s.cfg.base + off) 32 w) :: rest →
      step s = .next { s with inputs := rest }) ∧
  ∀ s : State,
    s.readRegister 0x00 = 0 ∧ s.readRegister 0x04 = s.statusWord ∧ s.readRegister 0x08 = s.result ∧
    s.readRegister 0x0C = s.ctrl ∧ s.readRegister 0x10 = s.errcmd ∧ s.readRegister 0x14 = s.minfo ∧
    s.readRegister 0x18 = s.cwlen ∧ s.readRegister 0x1C = s.pent ∧ s.readRegister 0x20 = s.pen1 ∧
    s.readRegister 0x24 = s.pen2 ∧ s.readRegister 0x28 = s.pen3 ∧ s.readRegister 0x2C = s.pen4 ∧
    s.readRegister 0x30 = 0x52535101 ∧ s.readRegister 0x34 = paramWord s.cfg ∧ s.readRegister 0x38 = 0 ∧
    s.readRegister 0x3C = 0

/-- R46: the layout of MINFO: VER, SIZE, MVALID and COMPLETE, 0 in its reserved bits, and VER and SIZE 0 when MVALID = 0;
COMPLETE is 1 exactly when MVALID = 1 and no cell is UNSET. -/
def Obligations.MinfoLayout : Prop :=
  State.reset.minfo = 0 ∧
  ∀ s : State, s.matrixShape →
    (s.minfo.extractLsb' 0 6).toNat = (if s.mvalid then s.ver else 0) ∧ s.minfo.extractLsb' 6 2 = 0#2 ∧
    (s.minfo.extractLsb' 8 8).toNat = (if s.mvalid then 4 * s.ver + 17 else 0) ∧ s.minfo.getLsbD 16 = s.mvalid ∧
    (s.minfo.getLsbD 17 = true ↔
      s.mvalid = true ∧ ∀ r c, r < s.size → c < s.size → cellAt s.mat r c ≠ .unset) ∧
    s.minfo.extractLsb' 18 14 = 0#14

/-- R44, R45, R47: ID, PARAM with its fields in every build and its value in the two named ones, and CWLEN. -/
def Obligations.ConstantRegistersAndCwlen : Prop :=
  (∀ s : State, s.readRegister 0x30 = 0x52535101) ∧
  (∀ cfg : Config,
    ((paramWord cfg).getLsbD 0 = true ↔ cfg.testDarkModule = .dark) ∧
    ((paramWord cfg).getLsbD 1 = true ↔ cfg.testVersionInfo = .real) ∧
    (paramWord cfg).extractLsb' 2 2 = 0#2 ∧ (paramWord cfg).extractLsb' 4 4 = 4#4 ∧
    (paramWord cfg).extractLsb' 8 4 = 8#4 ∧ (paramWord cfg).extractLsb' 12 4 = 12#4 ∧
    (paramWord cfg).extractLsb' 16 16 = 0#16) ∧
  paramWord Config.default = 0x0000C843 ∧
  (∀ base, paramWord { base := base, testDarkModule := .light, testVersionInfo := .zero } = 0x0000C840) ∧
  State.reset.cwlen = 0 ∧
  ∀ s : State, s.cwBounded → (s.cwlen.extractLsb' 0 13).toNat = s.cw.length ∧ s.cwlen.extractLsb' 13 19 = 0#19

/-! ### Invariants and whole-machine rules -/

/-- The reset state meets the invariant. -/
def Obligations.ResetMeetsTheInvariant : Prop :=
  State.reset.Inv ∧ State.reset.columnSixSet

/-- R37, R40, R48, R51, R52, R53, R141, R380: every step, from every state that meets the invariant, keeps it. -/
def Obligations.StepKeepsTheInvariant : Prop :=
  ∀ s t : State, s.Inv → step s = .next t → t.Inv

/-- R262: no step leaves an UNSET cell in column 6 of a started matrix. -/
def Obligations.ColumnSixStaysSet : Prop :=
  ∀ s t : State, s.matrixShape → s.columnSixSet → step s = .next t → t.columnSixSet

/-- R345, R142: a command that faults changes exactly ERR, ERRCODE, ERRCMD, the pending slot and DONE. R38, R142: a command
that does not fault leaves the fault report alone. In both cases it completes and leaves OVR, CTRL and the build's constants
alone. The model's reading, no clause of these rules: the completion clears the record of the command's start
(`started := none`, assumption log 20). -/
def Obligations.FaultChangesOnlyItsReport : Prop :=
  ∀ (i : Instr) (s t : State) (w : Word), s.pending = some w → exec i s = .next t →
    (∃ c : FaultCode, t = s.afterFault w c.code) ∨
    (t.err = s.err ∧ t.errcode = s.errcode ∧ t.errcmd = s.errcmd ∧ t.pending = none ∧ t.started = none ∧ t.done = true ∧
      t.ovr = s.ovr ∧ t.ie = s.ie ∧ t.border = s.border ∧ t.cfg = s.cfg ∧ t.resetLine = s.resetLine ∧ t.busData = s.busData ∧
      t.inputs = s.inputs)

/-- The frame of every command, by the rule of each: which commands write a polynomial buffer (and then only the one they
name), the codeword buffer, the matrix, its cells, the PEN registers and RESULT. -/
def Obligations.CommandsWriteOnlyTheirState : Prop :=
  ∀ (i : Instr) (s t : State), exec i s = .next t →
    (∀ k : Fin 4, i.polyDestination ≠ some k.val → t.polys.get k = s.polys.get k) ∧
    (i.writesCodewords = false → t.cw = s.cw) ∧
    (i.startsMatrix = false → t.mvalid = s.mvalid ∧ t.ver = s.ver ∧ t.size = s.size) ∧
    (i.startsMatrix = false → i.fillsCells = false → t.mat = s.mat) ∧
    (i.writesPenalties = false →
      t.pent = s.pent ∧ t.pen1 = s.pen1 ∧ t.pen2 = s.pen2 ∧ t.pen3 = s.pen3 ∧ t.pen4 = s.pen4) ∧
    (i.keepsResult = true → t.result = s.result)

/-- R328: a query changes no buffer, no matrix and no register but RESULT (and the completion or fault report), and a
complete matrix changes only when a starter replaces it. -/
def Obligations.CompleteMatrixIsOnlyReplaced : Prop :=
  (∀ (i : Instr) (s t : State) (w : Word), i.isQuery = true → s.pending = some w → exec i s = .next t →
    (∃ r : Word, t = { s with result := r, pending := none, started := none, done := true }) ∨
    ∃ c : FaultCode, t = s.afterFault w c.code) ∧
  ∀ (i : Instr) (s t : State), s.matrixShape → s.complete = true → i.startsMatrix = false → exec i s = .next t →
    t.mat = s.mat ∧ t.complete = true

/-- R350, R382: a reset and a completion at the same instant, in either order, end in the reset state: for the reset input,
and for the soft reset by a CTRL write with SRST = 1. The model's choices in these equations: MAT and the buffers' storage
hold nothing (assumption log 4), the last read's data and the events to come stay (log 14), the reset input's level (log 6),
the order of events (log 3), and that no execution is under way (log 20). -/
def Obligations.ResetWinsOverCompletion : Prop :=
  (∀ (s : State) (rest : List Input),
    Host.Core.run core 2 { s with inputs := .engine :: .resetPin true :: rest } =
      .next { State.resetWith s.cfg with resetLine := true, busData := s.busData, inputs := rest } ∧
    Host.Core.run core 2 { s with inputs := .resetPin true :: .engine :: rest } =
      .next { State.resetWith s.cfg with resetLine := true, busData := s.busData, inputs := rest }) ∧
  ∀ (s : State) (w : Word) (rest : List Input), s.resetLine = false → w.getLsbD 1 = true →
    Host.Core.run core 2 { s with inputs := .engine :: .access (.write (s.cfg.base + 0x0C) 32 w) :: rest } =
      .next { State.resetWith s.cfg with busData := s.busData, inputs := rest } ∧
    Host.Core.run core 2 { s with inputs := .access (.write (s.cfg.base + 0x0C) 32 w) :: .engine :: rest } =
      .next { State.resetWith s.cfg with busData := s.busData, inputs := rest }

/-- R350: a host write and the completion of the pending command at the same instant, whatever the command; `t` is the state
the completion alone leaves. A CMD write that goes first is dropped and sets OVR, and one that goes second is accepted. A
STATUS W1C of DONE that goes first leaves DONE 1 and irq asserted where IE is set, and one that goes second leaves DONE and
irq 0; where it clears nothing else, these are `t` itself and `t` with DONE cleared. R392 (93_implementation_defined.md U11),
a CTRL write without SRST and the pending command: after the completion, or between its start and its completion, while
BUSY still reads 1, it leaves `t` but for IE and BORDER, so the command used the old BORDER; before the start the command
runs with the new one. (The order of events: assumption log 3; the start as an event of its own: log 20.) -/
def Obligations.HostWriteRacesCompletion : Prop :=
  ∀ (s t : State) (v : Word) (rest : List Input), s.ready v → step { s with inputs := .engine :: rest } = .next t →
    (∀ w : Word,
      Host.Core.run core 2 { s with inputs := .access (.write s.cfg.base 32 w) :: .engine :: rest } =
        .next { t with ovr := true } ∧
      Host.Core.run core 2 { s with inputs := .engine :: .access (.write s.cfg.base 32 w) :: rest } =
        .next { t with pending := some w, done := false }) ∧
    (∀ w : Word, w.getLsbD 1 = true → ∃ t1 t2 : State,
      Host.Core.run core 2 { s with inputs := .access (.write (s.cfg.base + 0x04) 32 w) :: .engine :: rest } = .next t1 ∧
      t1.done = true ∧ t1.irq = s.ie ∧
      Host.Core.run core 2 { s with inputs := .engine :: .access (.write (s.cfg.base + 0x04) 32 w) :: rest } = .next t2 ∧
      t2.done = false ∧ t2.irq = false) ∧
    Host.Core.run core 2 { s with inputs := .access (.write (s.cfg.base + 0x04) 32 2) :: .engine :: rest } = .next t ∧
    Host.Core.run core 2 { s with inputs := .engine :: .access (.write (s.cfg.base + 0x04) 32 2) :: rest } =
      .next { t with done := false } ∧
    ∀ (w : Word) (ctrl : Input), w.getLsbD 1 = false → ctrl = .access (.write (s.cfg.base + 0x0C) 32 w) →
      Host.Core.run core 2 { s with inputs := .engine :: ctrl :: rest } =
        .next { t with ie := w.getLsbD 0, border := w.extractLsb' 8 8 } ∧
      (∃ u, Host.Core.run core 2 { s with inputs := .start :: ctrl :: .engine :: rest } = .next u ∧
        u.statusWord.getLsbD 0 = true ∧ u.border = w.extractLsb' 8 8 ∧
        step u = .next { t with ie := w.getLsbD 0, border := w.extractLsb' 8 8 }) ∧
      (s.started = none → Host.Core.run core 2 { s with inputs := ctrl :: .engine :: rest } =
        step { s with inputs := .engine :: rest, ie := w.getLsbD 0, border := w.extractLsb' 8 8 })

/-- R126, R385: the directive of a bare command line on an idle block writes CMD, polls while `BUSY = 1`, and runs the command
once; the last poll finds `BUSY = 0` (`WAIT` as events: assumption log 16; the accepted
command has not started: log 20). -/
def Obligations.HandshakeRunsTheCommand : Prop :=
  ∀ (s t : State) (i : Instr) (polls : Nat) (rest : List Input), i.WellFormed → s.resetLine = false →
    s.pending = none → s.inputs = commandEvents s.cfg.base polls i ++ rest →
    exec i { s with pending := some (encode i), started := none, done := false } = .next t →
    ∃ u, Host.Core.run core (polls + 3) s = .next u ∧ u = { t with inputs := rest, busData := t.statusWord } ∧
      u.busData.getLsbD 0 = false

/-! ### System and GF(256) -/

/-- R144: NOP completes with no effect but the completion. -/
def Obligations.NopCompletes : Prop :=
  ∀ s : State, exec .nop s = .next { s with pending := none, started := none, done := true }

/-- R150, R152: EXP follows its recurrence, and LOG is its inverse for the indices 0 to 254, whose values are the bytes 1 to
255; the logarithm of 0 is a DOMAIN fault. -/
def Obligations.GaloisTablesFollowTheRules : Prop :=
  (∀ i, i < 8 → expEntry i = 1#8 <<< i) ∧
  (∀ i, i < 256 → 8 ≤ i →
    expEntry i = expEntry (i - 4) ^^^ expEntry (i - 5) ^^^ expEntry (i - 6) ^^^ expEntry (i - 8)) ∧
  (∀ i, i < 255 → glog (expEntry i) = .ok i) ∧
  (∀ a : Byte, a ≠ 0 → ∃ i, i < 255 ∧ expEntry i = a) ∧
  glog 0 = .error .domain

/-- R155: GEXP returns `EXP[n mod 255]`, a byte that is never 0 (1 for a multiple of 255), and writes nothing else. -/
def Obligations.GexpReturnsThePower : Prop :=
  ∀ (n : Nat) (s : State), ∃ b : Byte, b = expEntry (n % 255) ∧ b ≠ 0 ∧ (n % 255 = 0 → b = 1) ∧
    exec (.gexp n) s = .next { s with result := b.setWidth 32, pending := none, started := none, done := true }

/-- R156: GLOG of a nonzero byte returns the exponent 0..254 that EXP maps to it; GLOG 0 faults DOMAIN. -/
def Obligations.GlogReturnsTheExponent : Prop :=
  (∀ (a : Byte) (s : State), a ≠ 0 → ∃ l : Nat, l < 255 ∧ gexp l = a ∧
    exec (.glog a) s = .next { s with result := BitVec.ofNat 32 l, pending := none, started := none, done := true }) ∧
  ∀ (s : State) (w : Word), s.pending = some w → exec (.glog 0) s = .next (s.afterFault w 9)

/-- R157: GMUL of nonzero bytes returns `gexp` of the sum of their logarithms, in either order; a zero operand faults
DOMAIN. -/
def Obligations.GmulReturnsTheProduct : Prop :=
  (∀ (a b : Byte) (s : State), a ≠ 0 → b ≠ 0 → ∃ la lb : Nat, la < 255 ∧ lb < 255 ∧ gexp la = a ∧ gexp lb = b ∧
    gexp ((la : Int) + lb) ≠ 0 ∧
    exec (.gmul a b) s =
      .next { s with result := (gexp ((la : Int) + lb)).setWidth 32, pending := none, started := none, done := true }) ∧
  (∀ (a b : Byte) (s : State), exec (.gmul a b) s = exec (.gmul b a) s) ∧
  ∀ (a b : Byte) (s : State) (w : Word), (a = 0 ∨ b = 0) → s.pending = some w →
    exec (.gmul a b) s = .next (s.afterFault w 9)

/-! ### Polynomial buffers -/

/-- R171 to R174: PCLR, PPUSH, PRD and PLEN on a buffer p0 to p3, with room and with the index in range where they ask. -/
def Obligations.PolyBufferCommandsComplete : Prop :=
  (∀ (d : Fin 4) (s : State),
    exec (.pclr d.val) s = .next { s with polys := s.polys.set d [], pending := none, started := none, done := true }) ∧
  (∀ (d : Fin 4) (b : Byte) (s : State), (s.polys.get d).length < 256 →
    exec (.ppush d.val b) s = .next { s with
      polys := s.polys.set d (s.polys.get d ++ [b])
      result := BitVec.ofNat 32 ((s.polys.get d).length + 1)
      pending := none
      started := none
      done := true }) ∧
  (∀ (d : Fin 4) (idx : Nat) (s : State) (h : idx < (s.polys.get d).length),
    exec (.prd d.val idx) s =
      .next { s with result := ((s.polys.get d)[idx]).setWidth 32, pending := none, started := none, done := true }) ∧
  ∀ (d : Fin 4) (s : State),
    exec (.plen d.val) s =
      .next { s with result := BitVec.ofNat 32 (s.polys.get d).length, pending := none, started := none, done := true }

/-- R175, R170: PNORM drops the leading zeros of its source, keeps one when all are zero, and pads with the shift's zeros;
EMPTY on an empty source, then OVERFLOW when the result would pass 256. -/
def Obligations.PnormTrimsAndShifts : Prop :=
  (∀ (d a : Fin 4) (shift k : Nat) (x : Byte) (xs : List Byte) (s : State),
    s.polys.get a = zeros k ++ x :: xs → x ≠ 0 →
    (xs.length + 1 + shift ≤ 256 → exec (.pnorm d.val a.val shift) s = .next { s with
      polys := s.polys.set d (x :: xs ++ zeros shift)
      result := BitVec.ofNat 32 (xs.length + 1 + shift)
      pending := none
      started := none
      done := true }) ∧
    (256 < xs.length + 1 + shift → ∀ w, s.pending = some w →
      exec (.pnorm d.val a.val shift) s = .next (s.afterFault w 8))) ∧
  (∀ (d a : Fin 4) (shift k : Nat) (s : State), s.polys.get a = zeros (k + 1) →
    (shift < 256 → exec (.pnorm d.val a.val shift) s = .next { s with
      polys := s.polys.set d (0 :: zeros shift)
      result := BitVec.ofNat 32 (shift + 1)
      pending := none
      started := none
      done := true }) ∧
    (256 ≤ shift → ∀ w, s.pending = some w → exec (.pnorm d.val a.val shift) s = .next (s.afterFault w 8))) ∧
  ∀ (d a : Fin 4) (shift : Nat) (s : State) (w : Word), s.polys.get a = [] → s.pending = some w →
    exec (.pnorm d.val a.val shift) s = .next (s.afterFault w 6)

/-- R118, R143, R172, R173, R222 to R224: a buffer number 4 or more in any field a command uses faults BAD_BUF before any
other check; a full buffer faults OVERFLOW; an index at or past the end faults RANGE. -/
def Obligations.BufferChecksFault : Prop :=
  ∀ (s : State) (w : Word), s.pending = some w →
    (∀ d, 4 ≤ d →
      exec (.pclr d) s = .next (s.afterFault w 2) ∧ (∀ b, exec (.ppush d b) s = .next (s.afterFault w 2)) ∧
      (∀ idx, exec (.prd d idx) s = .next (s.afterFault w 2)) ∧ exec (.plen d) s = .next (s.afterFault w 2) ∧
      (∀ n, exec (.pgen d n) s = .next (s.afterFault w 2)) ∧ exec (.cpushp d) s = .next (s.afterFault w 2)) ∧
    (∀ d a n, (4 ≤ d ∨ 4 ≤ a) →
      exec (.pnorm d a n) s = .next (s.afterFault w 2) ∧ exec (.rsec d a n) s = .next (s.afterFault w 2)) ∧
    (∀ d a b, (4 ≤ d ∨ 4 ≤ a ∨ 4 ≤ b) →
      exec (.pmul d a b) s = .next (s.afterFault w 2) ∧ exec (.pmod d a b) s = .next (s.afterFault w 2)) ∧
    (∀ (d : Fin 4) (b : Byte), 256 ≤ (s.polys.get d).length → exec (.ppush d.val b) s = .next (s.afterFault w 8)) ∧
    (∀ (d : Fin 4) (idx : Nat), (s.polys.get d).length ≤ idx → exec (.prd d.val idx) s = .next (s.afterFault w 7)) ∧
    (∀ b : Byte, 4096 ≤ s.cw.length → exec (.cpush b) s = .next (s.afterFault w 8)) ∧
    (∀ idx : Nat, s.cw.length ≤ idx → exec (.crd idx) s = .next (s.afterFault w 7)) ∧
    ∀ a : Fin 4, 4096 < s.cw.length + (s.polys.get a).length → exec (.cpushp a.val) s = .next (s.afterFault w 8)

/-! ### Polynomial arithmetic -/

/-- The product of two coefficients where it exists (R154). -/
def Sys2Proof.Machine.productOf (x y : Byte) : Byte :=
  match gfMul x y with
  | .ok z => z
  | .error _ => 0

/-- Coefficient `k` of a product: the XOR of the products `a[i]·b[j]` with `i + j = k` (R191). -/
def Sys2Proof.Machine.coefficientOf (a b : List Byte) (k : Nat) : Byte :=
  ((List.range a.length).map fun i =>
    if i ≤ k ∧ k - i < b.length then productOf (a.getD i 0) (b.getD (k - i) 0) else 0).foldl (fun x y => x ^^^ y) 0

/-- R190 to R192: PMUL of two buffers whose trimmed lists have no zero coefficient and a product of at most 256 writes the
list of length `len(a) + len(b) - 1` whose coefficient `k` is the XOR of the products of index sum `k`. -/
def Obligations.PmulConvolves : Prop :=
  ∀ (d a b : Fin 4) (s : State) (p q : List Byte), s.polys.get a ≠ [] → s.polys.get b ≠ [] →
    p = trim (s.polys.get a) → q = trim (s.polys.get b) → 0 ∉ p → 0 ∉ q → p.length + q.length - 1 ≤ 256 →
    ∃ r : List Byte, r.length = p.length + q.length - 1 ∧ (∀ k, k < r.length → r.getD k 0 = coefficientOf p q k) ∧
      exec (.pmul d.val a.val b.val) s = .next { s with
        polys := s.polys.set d r, result := BitVec.ofNat 32 r.length, pending := none, started := none, done := true }

/-- R192: PMUL faults EMPTY when an operand buffer is empty, then OVERFLOW when the product would pass 256, then DOMAIN when a
coefficient of a trimmed operand is 0. -/
def Obligations.PmulFaults : Prop :=
  ∀ (d a b : Fin 4) (s : State) (w : Word) (p q : List Byte), s.pending = some w → s.polysBounded →
    p = trim (s.polys.get a) → q = trim (s.polys.get b) →
    ((s.polys.get a = [] ∨ s.polys.get b = []) → exec (.pmul d.val a.val b.val) s = .next (s.afterFault w 6)) ∧
    (s.polys.get a ≠ [] → s.polys.get b ≠ [] →
      (256 < p.length + q.length - 1 → exec (.pmul d.val a.val b.val) s = .next (s.afterFault w 8)) ∧
      (p.length + q.length - 1 ≤ 256 → (0 ∈ p ∨ 0 ∈ q) →
        exec (.pmul d.val a.val b.val) s = .next (s.afterFault w 9)))

/-- R191: polynomial multiplication is commutative, including which operands fault. -/
def Obligations.PmulCommutes : Prop :=
  ∀ (d a b : Nat) (s : State), s.polysBounded → exec (.pmul d a b) s = exec (.pmul d b a) s

/-- The logarithm of a coefficient where it has one (R152). -/
def Sys2Proof.Machine.logOf (x : Byte) : Nat :=
  match glog x with
  | .ok l => l
  | .error _ => 0

/-- R193: a dividend shorter than its divisor is the remainder; otherwise, the dividend not zero and the divisor without a
zero coefficient, the remainder is that of the list one reduction step leaves, the leading term cancelled by the scaled
divisor and leading zeros trimmed. R194 (the spec's own inference): a remainder is normalized and strictly shorter than its
divisor. -/
def Obligations.RemainderFollowsTheReduction : Prop :=
  ∀ p q : List Byte, normalized p = true → normalized q = true →
    (p.length < q.length → pmod p q = .ok p) ∧
    (q.length ≤ p.length → p.length ≤ 256 → p ≠ [0] → 0 ∉ q →
      ∀ ratio : Int, ratio = (logOf (p.headD 0) : Int) - logOf (q.headD 0) →
        pmod p q = pmod (trim ((List.range p.length).map fun k =>
          if k < q.length then p.getD k 0 ^^^ gexp (logOf (q.getD k 0) + ratio) else p.getD k 0)) q) ∧
    ∀ r, pmod p q = .ok r → normalized r = true ∧ r.length < q.length

/-- R195, R193: PMOD by a divisor of length 2 or more with no zero coefficient writes a normalized remainder shorter than the
divisor; a dividend shorter than the divisor comes back normalized, whatever the divisor holds. -/
def Obligations.PmodCompletes : Prop :=
  ∀ (d a b : Fin 4) (s : State) (p q : List Byte), s.polysBounded → s.polys.get a ≠ [] → s.polys.get b ≠ [] →
    p = trim (s.polys.get a) → q = trim (s.polys.get b) →
    (2 ≤ q.length → 0 ∉ q → ∃ r : List Byte, pmod p q = .ok r ∧ normalized r = true ∧ r.length < q.length ∧
      exec (.pmod d.val a.val b.val) s = .next { s with
        polys := s.polys.set d r, result := BitVec.ofNat 32 r.length, pending := none, started := none, done := true }) ∧
    (p.length < q.length → exec (.pmod d.val a.val b.val) s = .next { s with
      polys := s.polys.set d p, result := BitVec.ofNat 32 p.length, pending := none, started := none, done := true })

/-- R193, R195: PMOD faults EMPTY on an empty buffer, and DOMAIN by a divisor of length 1 and by a divisor with a zero
coefficient as soon as one step runs. -/
def Obligations.PmodFaults : Prop :=
  ∀ (d a b : Fin 4) (s : State) (w : Word) (p q : List Byte), s.pending = some w → s.polysBounded →
    p = trim (s.polys.get a) → q = trim (s.polys.get b) →
    ((s.polys.get a = [] ∨ s.polys.get b = []) → exec (.pmod d.val a.val b.val) s = .next (s.afterFault w 6)) ∧
    (s.polys.get a ≠ [] → s.polys.get b ≠ [] → (q.length = 1 ∨ (0 ∈ q ∧ q.length ≤ p.length)) →
      exec (.pmod d.val a.val b.val) s = .next (s.afterFault w 9))

/-- R196, R197: `gen(0)` is `[1]` and `gen(n+1)` the product of `gen(n)` and `[1, gexp(n)]`; PGEN n for n up to 255 writes
`gen(n)`, a monic list of n + 1 coefficients, none of them 0 up to n = 254; a larger n faults OVERFLOW. -/
def Obligations.PgenBuildsTheGenerator : Prop :=
  gen 0 = .ok [1] ∧
  (∀ (n : Nat) (g : List Byte), n < 255 → gen n = .ok g → gen (n + 1) = pmul g [1, gexp n]) ∧
  (∀ (d : Fin 4) (n : Nat) (s : State), n ≤ 255 → ∃ g : List Byte,
    gen n = .ok g ∧ g.length = n + 1 ∧ g.head? = some 1 ∧ (n ≤ 254 → 0 ∉ g) ∧
    exec (.pgen d.val n) s = .next { s with
      polys := s.polys.set d g, result := BitVec.ofNat 32 (n + 1), pending := none, started := none, done := true }) ∧
  ∀ (d : Fin 4) (n : Nat) (s : State) (w : Word), 256 ≤ n → s.pending = some w →
    exec (.pgen d.val n) s = .next (s.afterFault w 8)

/-- R198, R199: RSEC with 1 to 254 codewords on data with a nonzero byte writes exactly n bytes: the remainder of the data
times x^n by `gen(n)`, right-aligned, with zeros on its left. -/
def Obligations.RsecReturnsTheCodewords : Prop :=
  ∀ (d a : Fin 4) (n : Nat) (s : State) (p : List Byte), 1 ≤ n → n ≤ 254 → (∃ x ∈ s.polys.get a, x ≠ 0) →
    p = trim (s.polys.get a) → p.length + n ≤ 256 →
    ∃ g m : List Byte, gen n = .ok g ∧ pmod (p ++ zeros n) g = .ok m ∧ m.length ≤ n ∧
      exec (.rsec d.val a.val n) s = .next { s with
        polys := s.polys.set d (zeros (n - m.length) ++ m)
        result := BitVec.ofNat 32 n
        pending := none
        started := none
        done := true }

/-- R198: RSEC faults EMPTY on empty data, OVERFLOW when n is 256 or more or the trimmed data and n pass 256, and DOMAIN when
n is 0, when every data byte is 0, and when n is 255 and the trimmed data has one byte. -/
def Obligations.RsecFaults : Prop :=
  ∀ (d a : Fin 4) (n : Nat) (s : State) (w : Word) (p : List Byte), s.pending = some w → s.polysBounded →
    p = trim (s.polys.get a) →
    (s.polys.get a = [] → exec (.rsec d.val a.val n) s = .next (s.afterFault w 6)) ∧
    (s.polys.get a ≠ [] →
      ((256 ≤ n ∨ 256 < p.length + n) → exec (.rsec d.val a.val n) s = .next (s.afterFault w 8)) ∧
      (n ≤ 255 → p.length + n ≤ 256 → (n = 0 ∨ n = 255 ∨ ∀ x ∈ s.polys.get a, x = 0) →
        exec (.rsec d.val a.val n) s = .next (s.afterFault w 9)))

/-! ### The codeword buffer -/

/-- R221 to R225: the codeword commands, with room and with the index in range where they ask; CPUSHP appends its buffer raw,
leading zeros kept. -/
def Obligations.CodewordCommandsComplete : Prop :=
  (∀ s : State, exec .cclr s = .next { s with cw := [], pending := none, started := none, done := true }) ∧
  (∀ (b : Byte) (s : State), s.cw.length < 4096 →
    exec (.cpush b) s = .next { s with
      cw := s.cw ++ [b], result := BitVec.ofNat 32 (s.cw.length + 1), pending := none, started := none, done := true }) ∧
  (∀ (idx : Nat) (s : State) (h : idx < s.cw.length),
    exec (.crd idx) s = .next { s with result := (s.cw[idx]).setWidth 32, pending := none, started := none, done := true }) ∧
  (∀ (a : Fin 4) (s : State), s.cw.length + (s.polys.get a).length ≤ 4096 →
    exec (.cpushp a.val) s = .next { s with
      cw := s.cw ++ s.polys.get a
      result := BitVec.ofNat 32 (s.cw.length + (s.polys.get a).length)
      pending := none
      started := none
      done := true }) ∧
  ∀ s : State,
    exec .clen s = .next { s with result := BitVec.ofNat 32 s.cw.length, pending := none, started := none, done := true }

/-! ### The symbol matrix -/

/-- R245: the pairs of `ALIGN[v]` entries at which an alignment pattern stands, all but the three whose centres lie in a
finder region. -/
def Sys2Proof.Machine.alignmentStands (v R C : Nat) : Prop :=
  R ∈ alignCentres v ∧ C ∈ alignCentres v ∧ (R, C) ≠ (6, 6) ∧ (R, C) ≠ (6, 4 * v + 10) ∧ (R, C) ≠ (4 * v + 10, 6)

/-- The cells steps 1 to 3 set (R243, R245, R246): the three 8×8 corners, row 6 and column 6, and the 5×5 squares of the
alignment patterns. -/
def Sys2Proof.Machine.skeletonSets (v r c : Nat) : Prop :=
  (r < 8 ∧ c < 8) ∨ (r < 8 ∧ 4 * v + 9 ≤ c) ∨ (4 * v + 9 ≤ r ∧ c < 8) ∨ r = 6 ∨ c = 6 ∨
  ∃ R C, alignmentStands v R C ∧ R ≤ r + 2 ∧ r ≤ R + 2 ∧ C ≤ c + 2 ∧ c ≤ C + 2

/-- R248: MSKEL with a version 1..40 starts a matrix of that version with its skeleton, whatever was there, and RESULT is its
side. R247: the skeleton's cells outside the finder, alignment and timing patterns, and only those, are UNSET. -/
def Obligations.MskelStartsTheMatrix : Prop :=
  ∀ (v : Nat) (s : State), 1 ≤ v → v ≤ 40 →
    squareGrid (4 * v + 17) (skeleton v) ∧
    (∀ r c, r < 4 * v + 17 → c < 4 * v + 17 → (cellAt (skeleton v) r c = .unset ↔ ¬ skeletonSets v r c)) ∧
    exec (.mskel v) s = .next { s with
      mvalid := true
      ver := v
      size := 4 * v + 17
      mat := skeleton v
      result := BitVec.ofNat 32 (4 * v + 17)
      pending := none
      started := none
      done := true }

/-- R242, R243: in the skeleton of every version the three 7×7 finder squares hold their rings and the cells around them,
inside the matrix, are LIGHT. -/
def Obligations.SkeletonHasFindersAndSeparators : Prop :=
  ∀ v : Nat, 1 ≤ v → v ≤ 40 → ∀ R C : Int,
    ((R = 0 ∧ C = 0) ∨ (R = 4 * v + 10 ∧ C = 0) ∨ (R = 0 ∧ C = 4 * v + 10)) →
    ∀ i j : Int, -1 ≤ i → i ≤ 7 → -1 ≤ j → j ≤ 7 → 0 ≤ R + i → R + i < 4 * v + 17 → 0 ≤ C + j → C + j < 4 * v + 17 →
      cellAt (skeleton v) (R + i).toNat (C + j).toNat =
        if 0 ≤ i ∧ i ≤ 6 ∧ 0 ≤ j ∧ j ≤ 6 ∧
          ((i = 0 ∨ i = 6) ∨ (j = 0 ∨ j = 6) ∨ (2 ≤ i ∧ i ≤ 4 ∧ 2 ≤ j ∧ j ≤ 4)) then .dark else .light

/-- The distance between neighbouring entries of `ALIGN[v]` after its first one, for v = 2 to 40, as R244's table has it. -/
def Sys2Proof.Machine.alignmentGaps : List Nat :=
  [12, 16, 20, 24, 28] ++ [16, 18, 20, 22, 24, 26, 28] ++ [20, 22, 24, 24, 26, 28, 28] ++ [22, 24, 24, 26, 26, 28, 28] ++
  [24, 24, 26, 26, 26, 28, 28] ++ [24, 26, 26, 26, 28, 28]

/-- R246: in the skeleton of every version row 6 and column 6 alternate between the finders, dark at even indices. R244:
`ALIGN[1]` is empty; for v from 2 on its entries are 6 and then those that end at `SIZE - 7` in the distance the table has.
R245: at every pair of entries but the three in finder regions stands a 5×5 pattern, dark border, light ring, dark centre. -/
def Obligations.SkeletonHasTimingAndAlignmentPatterns : Prop :=
  (∀ v : Nat, 1 ≤ v → v ≤ 40 → ∀ k : Nat, 8 ≤ k → k ≤ 4 * v + 8 →
    cellAt (skeleton v) k 6 = (if k % 2 = 0 then .dark else .light) ∧
    cellAt (skeleton v) 6 k = (if k % 2 = 0 then .dark else .light)) ∧
  alignCentres 1 = [] ∧
  (∀ v : Nat, 2 ≤ v → v ≤ 40 → alignCentres v =
    6 :: (List.range (v / 7 + 1)).map fun k => 4 * v + 10 - (v / 7 - k) * alignmentGaps.getD (v - 2) 0) ∧
  ∀ v : Nat, 1 ≤ v → v ≤ 40 → ∀ R C : Nat, alignmentStands v R C → ∀ i j : Nat, i ≤ 4 → j ≤ 4 →
    cellAt (skeleton v) (R + i - 2) (C + j - 2) =
      if i = 0 ∨ i = 4 ∨ j = 0 ∨ j = 4 ∨ (i = 2 ∧ j = 2) then .dark else .light

/-- The cells a word of `n` bits is written to by two position rules, with the colour of each bit: a cell that was set keeps
its colour, and every cell at neither rule's positions is unchanged. -/
def Sys2Proof.Machine.WordWritten (before after : Grid) (n word : Nat) (pos pos' : Nat → Nat × Nat) : Prop :=
  (∀ i, i < n →
    cellAt after (pos i).1 (pos i).2 = (cellAt before (pos i).1 (pos i).2).orElse (Cell.ofBool (word.testBit i)) ∧
    cellAt after (pos' i).1 (pos' i).2 = (cellAt before (pos' i).1 (pos' i).2).orElse (Cell.ofBool (word.testBit i))) ∧
  ∀ r c, (∀ i, i < n → (r, c) ≠ pos i ∧ (r, c) ≠ pos' i) → cellAt after r c = cellAt before r c

/-- R251 to R253: MFMT writes the 15 format bits in column 8 and in row 8, those cells that are still UNSET, and RESULT is the
word; the word is 0 with T = 1. -/
def Obligations.MfmtWritesBothCopies : Prop :=
  ∀ (t : Bool) (mask : Fin 8) (lvl : Fin 4) (s : State), s.matrixShape → s.mvalid = true →
    ∃ g : Grid,
      WordWritten s.mat g 15 (if t then 0 else bch15 (lvl.val * 8 + mask.val))
        (fun i => if i < 6 then (i, 8) else if i < 8 then (i + 1, 8) else (s.size - 15 + i, 8))
        (fun i => if i < 8 then (8, s.size - 1 - i) else if i = 8 then (8, 7) else (8, 14 - i)) ∧
      exec (.mfmt t mask lvl) s = .next { s with
        mat := g
        result := BitVec.ofNat 32 (if t then 0 else bch15 (lvl.val * 8 + mask.val))
        pending := none
        started := none
        done := true }

/-- R255, R256: from version 7 MVERI writes the 18 version bits in both blocks, those cells that are still UNSET, and RESULT
is the word (0 in a test build of a `ZERO` block); below version 7 it writes no cell and RESULT is 0. -/
def Obligations.MveriWritesBothBlocks : Prop :=
  ∀ (t : Bool) (s : State), s.matrixShape → s.mvalid = true →
    (s.ver < 7 → exec (.mveri t) s = .next { s with result := 0, pending := none, started := none, done := true }) ∧
    (7 ≤ s.ver → ∀ w : Nat, w = (if t = true ∧ s.cfg.testVersionInfo = .zero then 0 else bch18 s.ver) →
      ∃ g : Grid,
        WordWritten s.mat g 18 w (fun i => (i / 3, s.size - 11 + i % 3)) (fun i => (s.size - 11 + i % 3, i / 3)) ∧
        exec (.mveri t) s = .next { s with
          mat := g, result := BitVec.ofNat 32 w, pending := none, started := none, done := true })

/-- R257, R258: MDARK writes the cell `(SIZE-8, 8)` if it is UNSET, DARK but for a test build of a `LIGHT` block, and RESULT
is 1 for DARK and 0 for LIGHT even when the cell was already set. -/
def Obligations.MdarkWritesTheDarkModule : Prop :=
  ∀ (t : Bool) (s : State), s.matrixShape → s.mvalid = true →
    ∀ dark : Bool, dark = !(t && s.cfg.testDarkModule == .light) →
      ∃ g : Grid,
        cellAt g (s.size - 8) 8 = (cellAt s.mat (s.size - 8) 8).orElse (Cell.ofBool dark) ∧
        (∀ r c, (r, c) ≠ (s.size - 8, 8) → cellAt g r c = cellAt s.mat r c) ∧
        exec (.mdark t) s = .next { s with
          mat := g, result := (if dark then 1 else 0), pending := none, started := none, done := true }

/-- R259: visit `n` of the walk. Strip `n div (2*SIZE)` is a pair of columns, from the right edge leftwards and past column 6
shifted left by one; in each row its right cell comes first; the first strip goes upward and each next one the other way. -/
def Sys2Proof.Machine.walkCell (size n : Nat) : Nat × Nat :=
  (if n / (2 * size) % 2 = 0 then size - 1 - n % (2 * size) / 2 else n % (2 * size) / 2,
   (if n / (2 * size) < (size - 7) / 2 then size - 1 - 2 * (n / (2 * size)) else size - 2 - 2 * (n / (2 * size))) - n % 2)

/-- R259 to R262: MDATA gives the k-th UNSET cell of the walk bit k of the codeword stream (0 when it has run out) XOR the
mask function, changes no other cell, and RESULT is the number of cells; a matrix whose column 6 is set is then complete.
R290: what the eight mask functions are. -/
def Obligations.MdataFillsTheUnsetCells : Prop :=
  (∀ (m : Fin 8) (s : State) (order : List (Nat × Nat)), s.matrixShape → s.mvalid = true →
    order = ((List.range (s.size * (s.size - 1))).map (walkCell s.size)).filter
      (fun p => cellAt s.mat p.1 p.2 == .unset) →
    ∃ g : Grid,
      (∀ (k : Nat) (h : k < order.length), ∀ r c, order[k] = (r, c) →
        cellAt g r c = Cell.ofBool
          ((match s.cw[k / 8]? with | some b => b.getLsbD (7 - k % 8) | none => false) ^^ maskf m r c)) ∧
      (∀ r c, (r, c) ∉ order → cellAt g r c = cellAt s.mat r c) ∧
      exec (.mdata m) s = .next { s with
        mat := g, result := BitVec.ofNat 32 order.length, pending := none, started := none, done := true } ∧
      (s.columnSixSet → State.complete { s with mat := g } = true)) ∧
  ∀ i j : Nat,
    (maskf 0 i j = true ↔ (i + j) % 2 = 0) ∧ (maskf 1 i j = true ↔ i % 2 = 0) ∧ (maskf 2 i j = true ↔ j % 3 = 0) ∧
    (maskf 3 i j = true ↔ (i + j) % 3 = 0) ∧ (maskf 4 i j = true ↔ (i / 2 + j / 3) % 2 = 0) ∧
    (maskf 5 i j = true ↔ (i * j) % 2 + (i * j) % 3 = 0) ∧ (maskf 6 i j = true ↔ ((i * j) % 2 + (i * j) % 3) % 2 = 0) ∧
    (maskf 7 i j = true ↔ ((i * j) % 3 + (i + j) % 2) % 2 = 0)

/-- R259: the zigzag lists the UNSET cells of the walk in its order, strip by strip from the right, the right column of a pair
first, upward first and then the other way at each edge; the walk visits every cell except those of column 6 exactly once,
`SIZE*(SIZE-1)` visits. -/
def Obligations.ZigzagWalksEveryCellOnceInOrder : Prop :=
  ∀ (v n : Nat), n = 4 * v + 17 →
    (∀ g : Grid, zigzag n g =
      ((List.range (n * (n - 1))).map (walkCell n)).filter (fun p => cellAt g p.1 p.2 == .unset)) ∧
    ((List.range (n * (n - 1))).map (walkCell n)).Nodup ∧
    ∀ r c, (r, c) ∈ (List.range (n * (n - 1))).map (walkCell n) ↔ r < n ∧ c < n ∧ c ≠ 6

/-- R84: bit k of the codeword sequence is `(CW[k div 8] >> (7 - (k mod 8))) AND 1`. -/
def Obligations.CodewordBitsRunMsbFirst : Prop :=
  ∀ (cw : List Byte) (k : Nat),
    (bitStream cw)[k]? = (cw[k / 8]?).map (fun b => decide ((b.toNat / 2 ^ (7 - k % 8)) % 2 = 1))

/-- R263, R264: MBUILD with a version 1..40 answers a complete matrix of that version, and its cells are those that MSKEL,
MFMT, MVERI, MDARK and MDATA leave when they run in that order. -/
def Obligations.MbuildEqualsTheStepSequence : Prop :=
  ∀ (t : Bool) (mask : Fin 8) (lvl : Fin 4) (v : Nat) (s : State), 1 ≤ v → v ≤ 40 →
    ∃ (g : Grid) (n : Nat),
      exec (.mbuild t mask lvl v) s = .next { s with
        mvalid := true
        ver := v
        size := 4 * v + 17
        mat := g
        result := BitVec.ofNat 32 n
        pending := none
        started := none
        done := true } ∧
      State.complete { s with mvalid := true, ver := v, size := 4 * v + 17, mat := g } = true ∧
      ∃ s1 s2 s3 s4 s5 : State,
        exec (.mskel v) s = .next s1 ∧ exec (.mfmt t mask lvl) s1 = .next s2 ∧ exec (.mveri t) s2 = .next s3 ∧
        exec (.mdark t) s3 = .next s4 ∧ exec (.mdata mask) s4 = .next s5 ∧ s5.mat = g ∧
        s5.result = BitVec.ofNat 32 n

/-- R249, R254: the format words are multiples of G15 once G15_MASK is taken off, with the data on top; the version words are
multiples of G18 with the version on top. R269: all 32 format words, by level code and mask, and all 34 version words. -/
def Obligations.CodeWordsAreSystematicBch : Prop :=
  (∀ d, d < 32 → (bch15 d ^^^ G15_MASK) / 2 ^ 10 = d ∧ bchRemainder G15 (bch15 d ^^^ G15_MASK) = 0 ∧
    bch15 d < 2 ^ 15) ∧
  (∀ v, v < 41 → 7 ≤ v → bch18 v / 2 ^ 12 = v ∧ bchRemainder G18 (bch18 v) = 0 ∧ bch18 v < 2 ^ 18) ∧
  (List.range 32).map bch15 =
    [0x5412, 0x5125, 0x5E7C, 0x5B4B, 0x45F9, 0x40CE, 0x4F97, 0x4AA0] ++
    [0x77C4, 0x72F3, 0x7DAA, 0x789D, 0x662F, 0x6318, 0x6C41, 0x6976] ++
    [0x1689, 0x13BE, 0x1CE7, 0x19D0, 0x0762, 0x0255, 0x0D0C, 0x083B] ++
    [0x355F, 0x3068, 0x3F31, 0x3A06, 0x24B4, 0x2183, 0x2EDA, 0x2BED] ∧
  (List.range 34).map (fun k => bch18 (k + 7)) =
    [0x07C94, 0x085BC, 0x09A99, 0x0A4D3, 0x0BBF6, 0x0C762, 0x0D847, 0x0E60D, 0x0F928, 0x10B78, 0x1145D, 0x12A17] ++
    [0x13532, 0x149A6, 0x15683, 0x168C9, 0x177EC, 0x18EC4, 0x191E1, 0x1AFAB, 0x1B08E, 0x1CC1A, 0x1D33F, 0x1ED75] ++
    [0x1F250, 0x209D5, 0x216F0, 0x228BA, 0x2379F, 0x24B0B, 0x2542E, 0x26A64, 0x27541, 0x28C69]

/-! ### Mask evaluation -/

/-- R292: cell `k` of line `l`, DARK true; lines 0 to SIZE-1 are the rows from left to right, the others the columns from top
to bottom. -/
def Sys2Proof.Machine.lineDark (size : Nat) (g : Grid) (l k : Nat) : Bool :=
  if l < size then cellAt g l k == .dark else cellAt g k (l - size) == .dark

/-- R293: the `len` cells of line `l` from index `a` on are a maximal run, bounded by the line's ends or cells of the other
colour. -/
def Sys2Proof.Machine.maximalRun (size : Nat) (g : Grid) (l a len : Nat) : Bool :=
  decide (a + len ≤ size ∧ (∀ k < len, lineDark size g l (a + k) = lineDark size g l a) ∧
    (a = 0 ∨ lineDark size g l (a - 1) ≠ lineDark size g l a) ∧
    (a + len = size ∨ lineDark size g l (a + len) ≠ lineDark size g l a))

/-- R295: the eleven cells of line `l` from index `a` on are those of a pattern. -/
def Sys2Proof.Machine.windowAt (size : Nat) (g : Grid) (l a : Nat) (pat : List Nat) : Bool :=
  (List.range 11).all fun k => lineDark size g l (a + k) == (pat.getD k 0 == 1)

/-- R300, R297: MPEN on a complete matrix writes the four penalties, their total and RESULT. R293: P1 adds `len - 2` for
every maximal run of 5 or more on any line. R294: P2 is 3 for every 2×2 block of one colour. R295: P3 is 40 for every window
that equals one of the two patterns. R296: P4 from the numbers of DARK cells and of cells. R298: their bounds. -/
def Obligations.MpenScoresTheMatrix : Prop :=
  ∀ (s : State) (q1 q2 q3 q4 d : Nat), s.matrixShape → s.complete = true →
    q1 = ∑ l ∈ Finset.range (2 * s.size), ∑ a ∈ Finset.range s.size, ∑ len ∈ Finset.range (s.size + 1),
      (if 5 ≤ len ∧ maximalRun s.size s.mat l a len then len - 2 else 0) →
    q2 = 3 * ((Finset.range (s.size - 1) ×ˢ Finset.range (s.size - 1)).filter fun p =>
      cellAt s.mat p.1 p.2 = cellAt s.mat p.1 (p.2 + 1) ∧ cellAt s.mat p.1 p.2 = cellAt s.mat (p.1 + 1) p.2 ∧
      cellAt s.mat p.1 p.2 = cellAt s.mat (p.1 + 1) (p.2 + 1)).card →
    q3 = 40 * ((Finset.range (2 * s.size) ×ˢ Finset.range (s.size - 10)).filter fun p =>
      windowAt s.size s.mat p.1 p.2 [1, 0, 1, 1, 1, 0, 1, 0, 0, 0, 0] ∨
      windowAt s.size s.mat p.1 p.2 [0, 0, 0, 0, 1, 0, 1, 1, 1, 0, 1]).card →
    d = ((Finset.range s.size ×ˢ Finset.range s.size).filter fun p => cellAt s.mat p.1 p.2 = .dark).card →
    q4 = 10 * (((20 : Int) * d - 10 * s.size ^ 2).natAbs / s.size ^ 2) →
    q1 ≤ 61950 ∧ q2 ≤ 92928 ∧ q3 ≤ 2364720 ∧ q4 ≤ 100 ∧
      exec .mpen s = .next { s with
        pen1 := BitVec.ofNat 32 q1
        pen2 := BitVec.ofNat 32 q2
        pen3 := BitVec.ofNat 32 q3
        pen4 := BitVec.ofNat 32 q4
        pent := BitVec.ofNat 32 (q1 + q2 + q3 + q4)
        result := BitVec.ofNat 32 (q1 + q2 + q3 + q4)
        pending := none
        started := none
        done := true }

/-- R299, R302: MSEL with a version 1..40 answers the mask whose test build has the lowest total penalty, the lowest index of
those that tie, with that build's scores in PEN, and leaves the mask-7 test build; the level makes no difference. -/
def Obligations.MselPicksTheLowestPenalty : Prop :=
  (∀ (lvl : Fin 4) (v : Nat) (s : State), 1 ≤ v → v ≤ 40 →
    ∃ (best : Fin 8) (q : Score),
      q = trial s.cfg s.cw v lvl best ∧
      (∀ m : Fin 8, q.total ≤ (trial s.cfg s.cw v lvl m).total) ∧
      (∀ m : Fin 8, m < best → q.total < (trial s.cfg s.cw v lvl m).total) ∧
      exec (.msel lvl v) s = .next { s with
        mvalid := true
        ver := v
        size := 4 * v + 17
        mat := build s.cfg s.cw v lvl 7 true
        pen1 := BitVec.ofNat 32 q.q1
        pen2 := BitVec.ofNat 32 q.q2
        pen3 := BitVec.ofNat 32 q.q3
        pen4 := BitVec.ofNat 32 q.q4
        pent := BitVec.ofNat 32 q.total
        result := BitVec.ofNat 32 best.val
        pending := none
        started := none
        done := true }) ∧
  ∀ (lvl lvl' : Fin 4) (v : Nat) (s : State), exec (.msel lvl v) s = exec (.msel lvl' v) s

/-- R303: MAUTO with a version 1..40 is MSEL and then MBUILD of the selected mask as one command: MSEL's RESULT and PEN
registers, MBUILD's matrix, and nothing else. -/
def Obligations.MautoIsSelectionThenBuild : Prop :=
  ∀ (lvl : Fin 4) (v : Nat) (s : State), 1 ≤ v → v ≤ 40 →
    ∃ (best : Fin 8) (s1 s2 : State),
      exec (.msel lvl v) s = .next s1 ∧ s1.result = BitVec.ofNat 32 best.val ∧
      exec (.mbuild false best lvl v) s1 = .next s2 ∧
      exec (.mauto lvl v) s = .next { s1 with mat := s2.mat }

/-! ### Matrix queries and matrix checks -/

/-- R320 to R327: the queries on a valid matrix (complete for MCTX, MBRD and MBSIZE) with coordinates in range: MRD's cell
code, MCTX's neighbourhood word bit by bit, MBRD's bordered cell, and MBSIZE's side. The BORDER is the one read when the
command executes (R326, R392): at its start where that was an event of its own (assumption log 20), else now. -/
def Obligations.QueriesReturnCells : Prop :=
  ∀ s : State, s.mvalid = true →
    (∀ r c, r < s.size → c < s.size →
      exec (.mrd r c) s = .next { s with
        result := (match cellAt s.mat r c with | .light => 0 | .dark => 1 | .unset => 2)
        pending := none
        started := none
        done := true }) ∧
    (s.complete = true →
      (∀ r c, r < s.size → c < s.size → ∃ word : Word,
        (∀ i j : Nat, i < 3 → j < 3 → (word.getLsbD (3 * i + j) = true ↔
          1 ≤ r + i ∧ r + i ≤ s.size ∧ 1 ≤ c + j ∧ c + j ≤ s.size ∧ cellAt s.mat (r + i - 1) (c + j - 1) = .dark)) ∧
        word.toNat < 512 ∧
        exec (.mctx r c) s = .next { s with result := word, pending := none, started := none, done := true }) ∧
      (∀ r c b, b = (s.started.getD s.border).toNat → r < s.size + 2 * b → c < s.size + 2 * b →
        exec (.mbrd r c) s = .next { s with
          result := if b ≤ r ∧ r < s.size + b ∧ b ≤ c ∧ c < s.size + b ∧ cellAt s.mat (r - b) (c - b) = .dark then 1 else 0
          pending := none
          started := none
          done := true }) ∧
      exec .mbsize s = .next { s with
        result := BitVec.ofNat 32 (s.size + 2 * (s.started.getD s.border).toNat)
        pending := none
        started := none
        done := true })

/-- R340 to R342: the matrix checks in their order: BAD_VERSION for a starter with a version outside 1..40, NO_MATRIX for
every other matrix command before a starter, then INCOMPLETE, then RANGE; for MBRD with the BORDER read when it executes. -/
def Obligations.MatrixChecksFault : Prop :=
  ∀ (s : State) (w : Word), s.pending = some w →
    (∀ v, (v = 0 ∨ 40 < v) →
      exec (.mskel v) s = .next (s.afterFault w 3) ∧
      (∀ t mask lvl, exec (.mbuild t mask lvl v) s = .next (s.afterFault w 3)) ∧
      ∀ lvl, exec (.msel lvl v) s = .next (s.afterFault w 3) ∧ exec (.mauto lvl v) s = .next (s.afterFault w 3)) ∧
    (s.mvalid = false →
      (∀ i : Instr, (i.fillsCells = true ∨ i.isQuery = true ∨ i = .mpen) → exec i s = .next (s.afterFault w 4))) ∧
    (s.mvalid = true → s.complete = false →
      exec .mpen s = .next (s.afterFault w 5) ∧ exec .mbsize s = .next (s.afterFault w 5) ∧
      ∀ r c, exec (.mctx r c) s = .next (s.afterFault w 5) ∧ exec (.mbrd r c) s = .next (s.afterFault w 5)) ∧
    (s.mvalid = true →
      (∀ r c, (s.size ≤ r ∨ s.size ≤ c) → exec (.mrd r c) s = .next (s.afterFault w 7)) ∧
      (s.complete = true →
        (∀ r c, (s.size ≤ r ∨ s.size ≤ c) → exec (.mctx r c) s = .next (s.afterFault w 7)) ∧
        ∀ r c b, b = (s.started.getD s.border).toNat → (s.size + 2 * b ≤ r ∨ s.size + 2 * b ≤ c) →
          exec (.mbrd r c) s = .next (s.afterFault w 7)))
end

