-- ==== Sys2Proof/Laws/State.lean ====
section
/-! SUPPORT. One lemma per field per update of the state, true by rfl: no later proof unfolds a record update. -/

namespace Sys2Proof.Machine

@[simp] theorem State.setResult_done (s : State) (v : Nat) : (s.setResult v).done = s.done := rfl
@[simp] theorem State.setResult_err (s : State) (v : Nat) : (s.setResult v).err = s.err := rfl
@[simp] theorem State.setResult_ovr (s : State) (v : Nat) : (s.setResult v).ovr = s.ovr := rfl
@[simp] theorem State.setResult_errcode (s : State) (v : Nat) : (s.setResult v).errcode = s.errcode := rfl
@[simp] theorem State.setResult_result (s : State) (v : Nat) : (s.setResult v).result = zext32 v := rfl
@[simp] theorem State.setResult_ie (s : State) (v : Nat) : (s.setResult v).ie = s.ie := rfl
@[simp] theorem State.setResult_border (s : State) (v : Nat) : (s.setResult v).border = s.border := rfl
@[simp] theorem State.setResult_errcmd (s : State) (v : Nat) : (s.setResult v).errcmd = s.errcmd := rfl
@[simp] theorem State.setResult_pent (s : State) (v : Nat) : (s.setResult v).pent = s.pent := rfl
@[simp] theorem State.setResult_pen1 (s : State) (v : Nat) : (s.setResult v).pen1 = s.pen1 := rfl
@[simp] theorem State.setResult_pen2 (s : State) (v : Nat) : (s.setResult v).pen2 = s.pen2 := rfl
@[simp] theorem State.setResult_pen3 (s : State) (v : Nat) : (s.setResult v).pen3 = s.pen3 := rfl
@[simp] theorem State.setResult_pen4 (s : State) (v : Nat) : (s.setResult v).pen4 = s.pen4 := rfl
@[simp] theorem State.setResult_pending (s : State) (v : Nat) : (s.setResult v).pending = s.pending := rfl
@[simp] theorem State.setResult_polys (s : State) (v : Nat) : (s.setResult v).polys = s.polys := rfl
@[simp] theorem State.setResult_cw (s : State) (v : Nat) : (s.setResult v).cw = s.cw := rfl
@[simp] theorem State.setResult_mvalid (s : State) (v : Nat) : (s.setResult v).mvalid = s.mvalid := rfl
@[simp] theorem State.setResult_ver (s : State) (v : Nat) : (s.setResult v).ver = s.ver := rfl
@[simp] theorem State.setResult_size (s : State) (v : Nat) : (s.setResult v).size = s.size := rfl
@[simp] theorem State.setResult_mat (s : State) (v : Nat) : (s.setResult v).mat = s.mat := rfl
@[simp] theorem State.setResult_started (s : State) (v : Nat) : (s.setResult v).started = s.started := rfl
@[simp] theorem State.setResult_cfg (s : State) (v : Nat) : (s.setResult v).cfg = s.cfg := rfl
@[simp] theorem State.setResult_resetLine (s : State) (v : Nat) : (s.setResult v).resetLine = s.resetLine := rfl
@[simp] theorem State.setResult_busData (s : State) (v : Nat) : (s.setResult v).busData = s.busData := rfl
@[simp] theorem State.setResult_inputs (s : State) (v : Nat) : (s.setResult v).inputs = s.inputs := rfl

@[simp] theorem State.setPoly_done (s : State) (k : Fin 4) (l : List Byte) : (s.setPoly k l).done = s.done := rfl
@[simp] theorem State.setPoly_err (s : State) (k : Fin 4) (l : List Byte) : (s.setPoly k l).err = s.err := rfl
@[simp] theorem State.setPoly_ovr (s : State) (k : Fin 4) (l : List Byte) : (s.setPoly k l).ovr = s.ovr := rfl
@[simp] theorem State.setPoly_errcode (s : State) (k : Fin 4) (l : List Byte) : (s.setPoly k l).errcode = s.errcode := rfl
@[simp] theorem State.setPoly_result (s : State) (k : Fin 4) (l : List Byte) : (s.setPoly k l).result = s.result := rfl
@[simp] theorem State.setPoly_ie (s : State) (k : Fin 4) (l : List Byte) : (s.setPoly k l).ie = s.ie := rfl
@[simp] theorem State.setPoly_border (s : State) (k : Fin 4) (l : List Byte) : (s.setPoly k l).border = s.border := rfl
@[simp] theorem State.setPoly_errcmd (s : State) (k : Fin 4) (l : List Byte) : (s.setPoly k l).errcmd = s.errcmd := rfl
@[simp] theorem State.setPoly_pent (s : State) (k : Fin 4) (l : List Byte) : (s.setPoly k l).pent = s.pent := rfl
@[simp] theorem State.setPoly_pen1 (s : State) (k : Fin 4) (l : List Byte) : (s.setPoly k l).pen1 = s.pen1 := rfl
@[simp] theorem State.setPoly_pen2 (s : State) (k : Fin 4) (l : List Byte) : (s.setPoly k l).pen2 = s.pen2 := rfl
@[simp] theorem State.setPoly_pen3 (s : State) (k : Fin 4) (l : List Byte) : (s.setPoly k l).pen3 = s.pen3 := rfl
@[simp] theorem State.setPoly_pen4 (s : State) (k : Fin 4) (l : List Byte) : (s.setPoly k l).pen4 = s.pen4 := rfl
@[simp] theorem State.setPoly_pending (s : State) (k : Fin 4) (l : List Byte) : (s.setPoly k l).pending = s.pending := rfl
@[simp] theorem State.setPoly_polys (s : State) (k : Fin 4) (l : List Byte) : (s.setPoly k l).polys = s.polys.set k l := rfl
@[simp] theorem State.setPoly_cw (s : State) (k : Fin 4) (l : List Byte) : (s.setPoly k l).cw = s.cw := rfl
@[simp] theorem State.setPoly_mvalid (s : State) (k : Fin 4) (l : List Byte) : (s.setPoly k l).mvalid = s.mvalid := rfl
@[simp] theorem State.setPoly_ver (s : State) (k : Fin 4) (l : List Byte) : (s.setPoly k l).ver = s.ver := rfl
@[simp] theorem State.setPoly_size (s : State) (k : Fin 4) (l : List Byte) : (s.setPoly k l).size = s.size := rfl
@[simp] theorem State.setPoly_mat (s : State) (k : Fin 4) (l : List Byte) : (s.setPoly k l).mat = s.mat := rfl
@[simp] theorem State.setPoly_started (s : State) (k : Fin 4) (l : List Byte) : (s.setPoly k l).started = s.started := rfl
@[simp] theorem State.setPoly_cfg (s : State) (k : Fin 4) (l : List Byte) : (s.setPoly k l).cfg = s.cfg := rfl
@[simp] theorem State.setPoly_resetLine (s : State) (k : Fin 4) (l : List Byte) : (s.setPoly k l).resetLine = s.resetLine := rfl
@[simp] theorem State.setPoly_busData (s : State) (k : Fin 4) (l : List Byte) : (s.setPoly k l).busData = s.busData := rfl
@[simp] theorem State.setPoly_inputs (s : State) (k : Fin 4) (l : List Byte) : (s.setPoly k l).inputs = s.inputs := rfl

@[simp] theorem State.setCw_done (s : State) (l : List Byte) : (s.setCw l).done = s.done := rfl
@[simp] theorem State.setCw_err (s : State) (l : List Byte) : (s.setCw l).err = s.err := rfl
@[simp] theorem State.setCw_ovr (s : State) (l : List Byte) : (s.setCw l).ovr = s.ovr := rfl
@[simp] theorem State.setCw_errcode (s : State) (l : List Byte) : (s.setCw l).errcode = s.errcode := rfl
@[simp] theorem State.setCw_result (s : State) (l : List Byte) : (s.setCw l).result = s.result := rfl
@[simp] theorem State.setCw_ie (s : State) (l : List Byte) : (s.setCw l).ie = s.ie := rfl
@[simp] theorem State.setCw_border (s : State) (l : List Byte) : (s.setCw l).border = s.border := rfl
@[simp] theorem State.setCw_errcmd (s : State) (l : List Byte) : (s.setCw l).errcmd = s.errcmd := rfl
@[simp] theorem State.setCw_pent (s : State) (l : List Byte) : (s.setCw l).pent = s.pent := rfl
@[simp] theorem State.setCw_pen1 (s : State) (l : List Byte) : (s.setCw l).pen1 = s.pen1 := rfl
@[simp] theorem State.setCw_pen2 (s : State) (l : List Byte) : (s.setCw l).pen2 = s.pen2 := rfl
@[simp] theorem State.setCw_pen3 (s : State) (l : List Byte) : (s.setCw l).pen3 = s.pen3 := rfl
@[simp] theorem State.setCw_pen4 (s : State) (l : List Byte) : (s.setCw l).pen4 = s.pen4 := rfl
@[simp] theorem State.setCw_pending (s : State) (l : List Byte) : (s.setCw l).pending = s.pending := rfl
@[simp] theorem State.setCw_polys (s : State) (l : List Byte) : (s.setCw l).polys = s.polys := rfl
@[simp] theorem State.setCw_cw (s : State) (l : List Byte) : (s.setCw l).cw = l := rfl
@[simp] theorem State.setCw_mvalid (s : State) (l : List Byte) : (s.setCw l).mvalid = s.mvalid := rfl
@[simp] theorem State.setCw_ver (s : State) (l : List Byte) : (s.setCw l).ver = s.ver := rfl
@[simp] theorem State.setCw_size (s : State) (l : List Byte) : (s.setCw l).size = s.size := rfl
@[simp] theorem State.setCw_mat (s : State) (l : List Byte) : (s.setCw l).mat = s.mat := rfl
@[simp] theorem State.setCw_started (s : State) (l : List Byte) : (s.setCw l).started = s.started := rfl
@[simp] theorem State.setCw_cfg (s : State) (l : List Byte) : (s.setCw l).cfg = s.cfg := rfl
@[simp] theorem State.setCw_resetLine (s : State) (l : List Byte) : (s.setCw l).resetLine = s.resetLine := rfl
@[simp] theorem State.setCw_busData (s : State) (l : List Byte) : (s.setCw l).busData = s.busData := rfl
@[simp] theorem State.setCw_inputs (s : State) (l : List Byte) : (s.setCw l).inputs = s.inputs := rfl

@[simp] theorem State.startMatrix_done (s : State) (v : Nat) (g : Grid) : (s.startMatrix v g).done = s.done := rfl
@[simp] theorem State.startMatrix_err (s : State) (v : Nat) (g : Grid) : (s.startMatrix v g).err = s.err := rfl
@[simp] theorem State.startMatrix_ovr (s : State) (v : Nat) (g : Grid) : (s.startMatrix v g).ovr = s.ovr := rfl
@[simp] theorem State.startMatrix_errcode (s : State) (v : Nat) (g : Grid) : (s.startMatrix v g).errcode = s.errcode := rfl
@[simp] theorem State.startMatrix_result (s : State) (v : Nat) (g : Grid) : (s.startMatrix v g).result = s.result := rfl
@[simp] theorem State.startMatrix_ie (s : State) (v : Nat) (g : Grid) : (s.startMatrix v g).ie = s.ie := rfl
@[simp] theorem State.startMatrix_border (s : State) (v : Nat) (g : Grid) : (s.startMatrix v g).border = s.border := rfl
@[simp] theorem State.startMatrix_errcmd (s : State) (v : Nat) (g : Grid) : (s.startMatrix v g).errcmd = s.errcmd := rfl
@[simp] theorem State.startMatrix_pent (s : State) (v : Nat) (g : Grid) : (s.startMatrix v g).pent = s.pent := rfl
@[simp] theorem State.startMatrix_pen1 (s : State) (v : Nat) (g : Grid) : (s.startMatrix v g).pen1 = s.pen1 := rfl
@[simp] theorem State.startMatrix_pen2 (s : State) (v : Nat) (g : Grid) : (s.startMatrix v g).pen2 = s.pen2 := rfl
@[simp] theorem State.startMatrix_pen3 (s : State) (v : Nat) (g : Grid) : (s.startMatrix v g).pen3 = s.pen3 := rfl
@[simp] theorem State.startMatrix_pen4 (s : State) (v : Nat) (g : Grid) : (s.startMatrix v g).pen4 = s.pen4 := rfl
@[simp] theorem State.startMatrix_pending (s : State) (v : Nat) (g : Grid) : (s.startMatrix v g).pending = s.pending := rfl
@[simp] theorem State.startMatrix_polys (s : State) (v : Nat) (g : Grid) : (s.startMatrix v g).polys = s.polys := rfl
@[simp] theorem State.startMatrix_cw (s : State) (v : Nat) (g : Grid) : (s.startMatrix v g).cw = s.cw := rfl
@[simp] theorem State.startMatrix_mvalid (s : State) (v : Nat) (g : Grid) : (s.startMatrix v g).mvalid = true := rfl
@[simp] theorem State.startMatrix_ver (s : State) (v : Nat) (g : Grid) : (s.startMatrix v g).ver = v := rfl
@[simp] theorem State.startMatrix_size (s : State) (v : Nat) (g : Grid) : (s.startMatrix v g).size = 4 * v + 17 := rfl
@[simp] theorem State.startMatrix_mat (s : State) (v : Nat) (g : Grid) : (s.startMatrix v g).mat = g := rfl
@[simp] theorem State.startMatrix_started (s : State) (v : Nat) (g : Grid) : (s.startMatrix v g).started = s.started := rfl
@[simp] theorem State.startMatrix_cfg (s : State) (v : Nat) (g : Grid) : (s.startMatrix v g).cfg = s.cfg := rfl
@[simp] theorem State.startMatrix_resetLine (s : State) (v : Nat) (g : Grid) : (s.startMatrix v g).resetLine = s.resetLine := rfl
@[simp] theorem State.startMatrix_busData (s : State) (v : Nat) (g : Grid) : (s.startMatrix v g).busData = s.busData := rfl
@[simp] theorem State.startMatrix_inputs (s : State) (v : Nat) (g : Grid) : (s.startMatrix v g).inputs = s.inputs := rfl

@[simp] theorem State.setMat_done (s : State) (g : Grid) : (s.setMat g).done = s.done := rfl
@[simp] theorem State.setMat_err (s : State) (g : Grid) : (s.setMat g).err = s.err := rfl
@[simp] theorem State.setMat_ovr (s : State) (g : Grid) : (s.setMat g).ovr = s.ovr := rfl
@[simp] theorem State.setMat_errcode (s : State) (g : Grid) : (s.setMat g).errcode = s.errcode := rfl
@[simp] theorem State.setMat_result (s : State) (g : Grid) : (s.setMat g).result = s.result := rfl
@[simp] theorem State.setMat_ie (s : State) (g : Grid) : (s.setMat g).ie = s.ie := rfl
@[simp] theorem State.setMat_border (s : State) (g : Grid) : (s.setMat g).border = s.border := rfl
@[simp] theorem State.setMat_errcmd (s : State) (g : Grid) : (s.setMat g).errcmd = s.errcmd := rfl
@[simp] theorem State.setMat_pent (s : State) (g : Grid) : (s.setMat g).pent = s.pent := rfl
@[simp] theorem State.setMat_pen1 (s : State) (g : Grid) : (s.setMat g).pen1 = s.pen1 := rfl
@[simp] theorem State.setMat_pen2 (s : State) (g : Grid) : (s.setMat g).pen2 = s.pen2 := rfl
@[simp] theorem State.setMat_pen3 (s : State) (g : Grid) : (s.setMat g).pen3 = s.pen3 := rfl
@[simp] theorem State.setMat_pen4 (s : State) (g : Grid) : (s.setMat g).pen4 = s.pen4 := rfl
@[simp] theorem State.setMat_pending (s : State) (g : Grid) : (s.setMat g).pending = s.pending := rfl
@[simp] theorem State.setMat_polys (s : State) (g : Grid) : (s.setMat g).polys = s.polys := rfl
@[simp] theorem State.setMat_cw (s : State) (g : Grid) : (s.setMat g).cw = s.cw := rfl
@[simp] theorem State.setMat_mvalid (s : State) (g : Grid) : (s.setMat g).mvalid = s.mvalid := rfl
@[simp] theorem State.setMat_ver (s : State) (g : Grid) : (s.setMat g).ver = s.ver := rfl
@[simp] theorem State.setMat_size (s : State) (g : Grid) : (s.setMat g).size = s.size := rfl
@[simp] theorem State.setMat_mat (s : State) (g : Grid) : (s.setMat g).mat = g := rfl
@[simp] theorem State.setMat_started (s : State) (g : Grid) : (s.setMat g).started = s.started := rfl
@[simp] theorem State.setMat_cfg (s : State) (g : Grid) : (s.setMat g).cfg = s.cfg := rfl
@[simp] theorem State.setMat_resetLine (s : State) (g : Grid) : (s.setMat g).resetLine = s.resetLine := rfl
@[simp] theorem State.setMat_busData (s : State) (g : Grid) : (s.setMat g).busData = s.busData := rfl
@[simp] theorem State.setMat_inputs (s : State) (g : Grid) : (s.setMat g).inputs = s.inputs := rfl

@[simp] theorem State.setPenalties_done (s : State) (a b c d : Nat) : (s.setPenalties a b c d).done = s.done := rfl
@[simp] theorem State.setPenalties_err (s : State) (a b c d : Nat) : (s.setPenalties a b c d).err = s.err := rfl
@[simp] theorem State.setPenalties_ovr (s : State) (a b c d : Nat) : (s.setPenalties a b c d).ovr = s.ovr := rfl
@[simp] theorem State.setPenalties_errcode (s : State) (a b c d : Nat) : (s.setPenalties a b c d).errcode = s.errcode := rfl
@[simp] theorem State.setPenalties_result (s : State) (a b c d : Nat) : (s.setPenalties a b c d).result = s.result := rfl
@[simp] theorem State.setPenalties_ie (s : State) (a b c d : Nat) : (s.setPenalties a b c d).ie = s.ie := rfl
@[simp] theorem State.setPenalties_border (s : State) (a b c d : Nat) : (s.setPenalties a b c d).border = s.border := rfl
@[simp] theorem State.setPenalties_errcmd (s : State) (a b c d : Nat) : (s.setPenalties a b c d).errcmd = s.errcmd := rfl
@[simp] theorem State.setPenalties_pent (s : State) (a b c d : Nat) : (s.setPenalties a b c d).pent = zext32 (a + b + c + d) := rfl
@[simp] theorem State.setPenalties_pen1 (s : State) (a b c d : Nat) : (s.setPenalties a b c d).pen1 = zext32 a := rfl
@[simp] theorem State.setPenalties_pen2 (s : State) (a b c d : Nat) : (s.setPenalties a b c d).pen2 = zext32 b := rfl
@[simp] theorem State.setPenalties_pen3 (s : State) (a b c d : Nat) : (s.setPenalties a b c d).pen3 = zext32 c := rfl
@[simp] theorem State.setPenalties_pen4 (s : State) (a b c d : Nat) : (s.setPenalties a b c d).pen4 = zext32 d := rfl
@[simp] theorem State.setPenalties_pending (s : State) (a b c d : Nat) : (s.setPenalties a b c d).pending = s.pending := rfl
@[simp] theorem State.setPenalties_polys (s : State) (a b c d : Nat) : (s.setPenalties a b c d).polys = s.polys := rfl
@[simp] theorem State.setPenalties_cw (s : State) (a b c d : Nat) : (s.setPenalties a b c d).cw = s.cw := rfl
@[simp] theorem State.setPenalties_mvalid (s : State) (a b c d : Nat) : (s.setPenalties a b c d).mvalid = s.mvalid := rfl
@[simp] theorem State.setPenalties_ver (s : State) (a b c d : Nat) : (s.setPenalties a b c d).ver = s.ver := rfl
@[simp] theorem State.setPenalties_size (s : State) (a b c d : Nat) : (s.setPenalties a b c d).size = s.size := rfl
@[simp] theorem State.setPenalties_mat (s : State) (a b c d : Nat) : (s.setPenalties a b c d).mat = s.mat := rfl
@[simp] theorem State.setPenalties_started (s : State) (a b c d : Nat) : (s.setPenalties a b c d).started = s.started := rfl
@[simp] theorem State.setPenalties_cfg (s : State) (a b c d : Nat) : (s.setPenalties a b c d).cfg = s.cfg := rfl
@[simp] theorem State.setPenalties_resetLine (s : State) (a b c d : Nat) : (s.setPenalties a b c d).resetLine = s.resetLine := rfl
@[simp] theorem State.setPenalties_busData (s : State) (a b c d : Nat) : (s.setPenalties a b c d).busData = s.busData := rfl
@[simp] theorem State.setPenalties_inputs (s : State) (a b c d : Nat) : (s.setPenalties a b c d).inputs = s.inputs := rfl

@[simp] theorem State.setScore_done (s : State) (q : Score) : (s.setScore q).done = s.done := rfl
@[simp] theorem State.setScore_err (s : State) (q : Score) : (s.setScore q).err = s.err := rfl
@[simp] theorem State.setScore_ovr (s : State) (q : Score) : (s.setScore q).ovr = s.ovr := rfl
@[simp] theorem State.setScore_errcode (s : State) (q : Score) : (s.setScore q).errcode = s.errcode := rfl
@[simp] theorem State.setScore_result (s : State) (q : Score) : (s.setScore q).result = s.result := rfl
@[simp] theorem State.setScore_ie (s : State) (q : Score) : (s.setScore q).ie = s.ie := rfl
@[simp] theorem State.setScore_border (s : State) (q : Score) : (s.setScore q).border = s.border := rfl
@[simp] theorem State.setScore_errcmd (s : State) (q : Score) : (s.setScore q).errcmd = s.errcmd := rfl
@[simp] theorem State.setScore_pent (s : State) (q : Score) : (s.setScore q).pent = zext32 q.total := rfl
@[simp] theorem State.setScore_pen1 (s : State) (q : Score) : (s.setScore q).pen1 = zext32 q.q1 := rfl
@[simp] theorem State.setScore_pen2 (s : State) (q : Score) : (s.setScore q).pen2 = zext32 q.q2 := rfl
@[simp] theorem State.setScore_pen3 (s : State) (q : Score) : (s.setScore q).pen3 = zext32 q.q3 := rfl
@[simp] theorem State.setScore_pen4 (s : State) (q : Score) : (s.setScore q).pen4 = zext32 q.q4 := rfl
@[simp] theorem State.setScore_pending (s : State) (q : Score) : (s.setScore q).pending = s.pending := rfl
@[simp] theorem State.setScore_polys (s : State) (q : Score) : (s.setScore q).polys = s.polys := rfl
@[simp] theorem State.setScore_cw (s : State) (q : Score) : (s.setScore q).cw = s.cw := rfl
@[simp] theorem State.setScore_mvalid (s : State) (q : Score) : (s.setScore q).mvalid = s.mvalid := rfl
@[simp] theorem State.setScore_ver (s : State) (q : Score) : (s.setScore q).ver = s.ver := rfl
@[simp] theorem State.setScore_size (s : State) (q : Score) : (s.setScore q).size = s.size := rfl
@[simp] theorem State.setScore_mat (s : State) (q : Score) : (s.setScore q).mat = s.mat := rfl
@[simp] theorem State.setScore_started (s : State) (q : Score) : (s.setScore q).started = s.started := rfl
@[simp] theorem State.setScore_cfg (s : State) (q : Score) : (s.setScore q).cfg = s.cfg := rfl
@[simp] theorem State.setScore_resetLine (s : State) (q : Score) : (s.setScore q).resetLine = s.resetLine := rfl
@[simp] theorem State.setScore_busData (s : State) (q : Score) : (s.setScore q).busData = s.busData := rfl
@[simp] theorem State.setScore_inputs (s : State) (q : Score) : (s.setScore q).inputs = s.inputs := rfl

@[simp] theorem State.completed_done (s : State) : (s.completed).done = true := rfl
@[simp] theorem State.completed_err (s : State) : (s.completed).err = s.err := rfl
@[simp] theorem State.completed_ovr (s : State) : (s.completed).ovr = s.ovr := rfl
@[simp] theorem State.completed_errcode (s : State) : (s.completed).errcode = s.errcode := rfl
@[simp] theorem State.completed_result (s : State) : (s.completed).result = s.result := rfl
@[simp] theorem State.completed_ie (s : State) : (s.completed).ie = s.ie := rfl
@[simp] theorem State.completed_border (s : State) : (s.completed).border = s.border := rfl
@[simp] theorem State.completed_errcmd (s : State) : (s.completed).errcmd = s.errcmd := rfl
@[simp] theorem State.completed_pent (s : State) : (s.completed).pent = s.pent := rfl
@[simp] theorem State.completed_pen1 (s : State) : (s.completed).pen1 = s.pen1 := rfl
@[simp] theorem State.completed_pen2 (s : State) : (s.completed).pen2 = s.pen2 := rfl
@[simp] theorem State.completed_pen3 (s : State) : (s.completed).pen3 = s.pen3 := rfl
@[simp] theorem State.completed_pen4 (s : State) : (s.completed).pen4 = s.pen4 := rfl
@[simp] theorem State.completed_pending (s : State) : (s.completed).pending = none := rfl
@[simp] theorem State.completed_polys (s : State) : (s.completed).polys = s.polys := rfl
@[simp] theorem State.completed_cw (s : State) : (s.completed).cw = s.cw := rfl
@[simp] theorem State.completed_mvalid (s : State) : (s.completed).mvalid = s.mvalid := rfl
@[simp] theorem State.completed_ver (s : State) : (s.completed).ver = s.ver := rfl
@[simp] theorem State.completed_size (s : State) : (s.completed).size = s.size := rfl
@[simp] theorem State.completed_mat (s : State) : (s.completed).mat = s.mat := rfl
@[simp] theorem State.completed_started (s : State) : (s.completed).started = none := rfl
@[simp] theorem State.completed_cfg (s : State) : (s.completed).cfg = s.cfg := rfl
@[simp] theorem State.completed_resetLine (s : State) : (s.completed).resetLine = s.resetLine := rfl
@[simp] theorem State.completed_busData (s : State) : (s.completed).busData = s.busData := rfl
@[simp] theorem State.completed_inputs (s : State) : (s.completed).inputs = s.inputs := rfl

@[simp] theorem State.faulted_done (s : State) (c : FaultCode) : (s.faulted c).done = true := rfl
@[simp] theorem State.faulted_err (s : State) (c : FaultCode) : (s.faulted c).err = true := rfl
@[simp] theorem State.faulted_ovr (s : State) (c : FaultCode) : (s.faulted c).ovr = s.ovr := rfl
@[simp] theorem State.faulted_errcode (s : State) (c : FaultCode) : (s.faulted c).errcode = c.code := rfl
@[simp] theorem State.faulted_result (s : State) (c : FaultCode) : (s.faulted c).result = s.result := rfl
@[simp] theorem State.faulted_ie (s : State) (c : FaultCode) : (s.faulted c).ie = s.ie := rfl
@[simp] theorem State.faulted_border (s : State) (c : FaultCode) : (s.faulted c).border = s.border := rfl
@[simp] theorem State.faulted_errcmd (s : State) (c : FaultCode) : (s.faulted c).errcmd = s.commandWord := rfl
@[simp] theorem State.faulted_pent (s : State) (c : FaultCode) : (s.faulted c).pent = s.pent := rfl
@[simp] theorem State.faulted_pen1 (s : State) (c : FaultCode) : (s.faulted c).pen1 = s.pen1 := rfl
@[simp] theorem State.faulted_pen2 (s : State) (c : FaultCode) : (s.faulted c).pen2 = s.pen2 := rfl
@[simp] theorem State.faulted_pen3 (s : State) (c : FaultCode) : (s.faulted c).pen3 = s.pen3 := rfl
@[simp] theorem State.faulted_pen4 (s : State) (c : FaultCode) : (s.faulted c).pen4 = s.pen4 := rfl
@[simp] theorem State.faulted_pending (s : State) (c : FaultCode) : (s.faulted c).pending = none := rfl
@[simp] theorem State.faulted_polys (s : State) (c : FaultCode) : (s.faulted c).polys = s.polys := rfl
@[simp] theorem State.faulted_cw (s : State) (c : FaultCode) : (s.faulted c).cw = s.cw := rfl
@[simp] theorem State.faulted_mvalid (s : State) (c : FaultCode) : (s.faulted c).mvalid = s.mvalid := rfl
@[simp] theorem State.faulted_ver (s : State) (c : FaultCode) : (s.faulted c).ver = s.ver := rfl
@[simp] theorem State.faulted_size (s : State) (c : FaultCode) : (s.faulted c).size = s.size := rfl
@[simp] theorem State.faulted_mat (s : State) (c : FaultCode) : (s.faulted c).mat = s.mat := rfl
@[simp] theorem State.faulted_started (s : State) (c : FaultCode) : (s.faulted c).started = none := rfl
@[simp] theorem State.faulted_cfg (s : State) (c : FaultCode) : (s.faulted c).cfg = s.cfg := rfl
@[simp] theorem State.faulted_resetLine (s : State) (c : FaultCode) : (s.faulted c).resetLine = s.resetLine := rfl
@[simp] theorem State.faulted_busData (s : State) (c : FaultCode) : (s.faulted c).busData = s.busData := rfl
@[simp] theorem State.faulted_inputs (s : State) (c : FaultCode) : (s.faulted c).inputs = s.inputs := rfl

@[simp] theorem State.cleared_done (s : State) : (s.cleared).done = false := rfl
@[simp] theorem State.cleared_err (s : State) : (s.cleared).err = false := rfl
@[simp] theorem State.cleared_ovr (s : State) : (s.cleared).ovr = false := rfl
@[simp] theorem State.cleared_errcode (s : State) : (s.cleared).errcode = 0 := rfl
@[simp] theorem State.cleared_result (s : State) : (s.cleared).result = 0 := rfl
@[simp] theorem State.cleared_ie (s : State) : (s.cleared).ie = false := rfl
@[simp] theorem State.cleared_border (s : State) : (s.cleared).border = 0 := rfl
@[simp] theorem State.cleared_errcmd (s : State) : (s.cleared).errcmd = 0 := rfl
@[simp] theorem State.cleared_pent (s : State) : (s.cleared).pent = 0 := rfl
@[simp] theorem State.cleared_pen1 (s : State) : (s.cleared).pen1 = 0 := rfl
@[simp] theorem State.cleared_pen2 (s : State) : (s.cleared).pen2 = 0 := rfl
@[simp] theorem State.cleared_pen3 (s : State) : (s.cleared).pen3 = 0 := rfl
@[simp] theorem State.cleared_pen4 (s : State) : (s.cleared).pen4 = 0 := rfl
@[simp] theorem State.cleared_pending (s : State) : (s.cleared).pending = none := rfl
@[simp] theorem State.cleared_polys (s : State) : (s.cleared).polys = { p0 := [], p1 := [], p2 := [], p3 := [] } := rfl
@[simp] theorem State.cleared_cw (s : State) : (s.cleared).cw = [] := rfl
@[simp] theorem State.cleared_mvalid (s : State) : (s.cleared).mvalid = false := rfl
@[simp] theorem State.cleared_ver (s : State) : (s.cleared).ver = 0 := rfl
@[simp] theorem State.cleared_size (s : State) : (s.cleared).size = 0 := rfl
@[simp] theorem State.cleared_mat (s : State) : (s.cleared).mat = [] := rfl
@[simp] theorem State.cleared_started (s : State) : (s.cleared).started = none := rfl
@[simp] theorem State.cleared_cfg (s : State) : (s.cleared).cfg = s.cfg := rfl
@[simp] theorem State.cleared_resetLine (s : State) : (s.cleared).resetLine = s.resetLine := rfl
@[simp] theorem State.cleared_busData (s : State) : (s.cleared).busData = s.busData := rfl
@[simp] theorem State.cleared_inputs (s : State) : (s.cleared).inputs = s.inputs := rfl

@[simp] theorem State.writeStatus_done (s : State) (w : Word) : (s.writeStatus w).done = (s.done && !w.getLsbD 1) := rfl
@[simp] theorem State.writeStatus_err (s : State) (w : Word) : (s.writeStatus w).err = (s.err && !w.getLsbD 2) := rfl
@[simp] theorem State.writeStatus_ovr (s : State) (w : Word) : (s.writeStatus w).ovr = (s.ovr && !w.getLsbD 3) := rfl
@[simp] theorem State.writeStatus_errcode (s : State) (w : Word) : (s.writeStatus w).errcode = (if w.getLsbD 2 then 0 else s.errcode) := rfl
@[simp] theorem State.writeStatus_result (s : State) (w : Word) : (s.writeStatus w).result = s.result := rfl
@[simp] theorem State.writeStatus_ie (s : State) (w : Word) : (s.writeStatus w).ie = s.ie := rfl
@[simp] theorem State.writeStatus_border (s : State) (w : Word) : (s.writeStatus w).border = s.border := rfl
@[simp] theorem State.writeStatus_errcmd (s : State) (w : Word) : (s.writeStatus w).errcmd = s.errcmd := rfl
@[simp] theorem State.writeStatus_pent (s : State) (w : Word) : (s.writeStatus w).pent = s.pent := rfl
@[simp] theorem State.writeStatus_pen1 (s : State) (w : Word) : (s.writeStatus w).pen1 = s.pen1 := rfl
@[simp] theorem State.writeStatus_pen2 (s : State) (w : Word) : (s.writeStatus w).pen2 = s.pen2 := rfl
@[simp] theorem State.writeStatus_pen3 (s : State) (w : Word) : (s.writeStatus w).pen3 = s.pen3 := rfl
@[simp] theorem State.writeStatus_pen4 (s : State) (w : Word) : (s.writeStatus w).pen4 = s.pen4 := rfl
@[simp] theorem State.writeStatus_pending (s : State) (w : Word) : (s.writeStatus w).pending = s.pending := rfl
@[simp] theorem State.writeStatus_polys (s : State) (w : Word) : (s.writeStatus w).polys = s.polys := rfl
@[simp] theorem State.writeStatus_cw (s : State) (w : Word) : (s.writeStatus w).cw = s.cw := rfl
@[simp] theorem State.writeStatus_mvalid (s : State) (w : Word) : (s.writeStatus w).mvalid = s.mvalid := rfl
@[simp] theorem State.writeStatus_ver (s : State) (w : Word) : (s.writeStatus w).ver = s.ver := rfl
@[simp] theorem State.writeStatus_size (s : State) (w : Word) : (s.writeStatus w).size = s.size := rfl
@[simp] theorem State.writeStatus_mat (s : State) (w : Word) : (s.writeStatus w).mat = s.mat := rfl
@[simp] theorem State.writeStatus_started (s : State) (w : Word) : (s.writeStatus w).started = s.started := rfl
@[simp] theorem State.writeStatus_cfg (s : State) (w : Word) : (s.writeStatus w).cfg = s.cfg := rfl
@[simp] theorem State.writeStatus_resetLine (s : State) (w : Word) : (s.writeStatus w).resetLine = s.resetLine := rfl
@[simp] theorem State.writeStatus_busData (s : State) (w : Word) : (s.writeStatus w).busData = s.busData := rfl
@[simp] theorem State.writeStatus_inputs (s : State) (w : Word) : (s.writeStatus w).inputs = s.inputs := rfl

@[simp] theorem State.withPending_done (s : State) (w : Word) : (s.withPending w).done = false := rfl
@[simp] theorem State.withPending_err (s : State) (w : Word) : (s.withPending w).err = s.err := rfl
@[simp] theorem State.withPending_ovr (s : State) (w : Word) : (s.withPending w).ovr = s.ovr := rfl
@[simp] theorem State.withPending_errcode (s : State) (w : Word) : (s.withPending w).errcode = s.errcode := rfl
@[simp] theorem State.withPending_result (s : State) (w : Word) : (s.withPending w).result = s.result := rfl
@[simp] theorem State.withPending_ie (s : State) (w : Word) : (s.withPending w).ie = s.ie := rfl
@[simp] theorem State.withPending_border (s : State) (w : Word) : (s.withPending w).border = s.border := rfl
@[simp] theorem State.withPending_errcmd (s : State) (w : Word) : (s.withPending w).errcmd = s.errcmd := rfl
@[simp] theorem State.withPending_pent (s : State) (w : Word) : (s.withPending w).pent = s.pent := rfl
@[simp] theorem State.withPending_pen1 (s : State) (w : Word) : (s.withPending w).pen1 = s.pen1 := rfl
@[simp] theorem State.withPending_pen2 (s : State) (w : Word) : (s.withPending w).pen2 = s.pen2 := rfl
@[simp] theorem State.withPending_pen3 (s : State) (w : Word) : (s.withPending w).pen3 = s.pen3 := rfl
@[simp] theorem State.withPending_pen4 (s : State) (w : Word) : (s.withPending w).pen4 = s.pen4 := rfl
@[simp] theorem State.withPending_pending (s : State) (w : Word) : (s.withPending w).pending = some w := rfl
@[simp] theorem State.withPending_polys (s : State) (w : Word) : (s.withPending w).polys = s.polys := rfl
@[simp] theorem State.withPending_cw (s : State) (w : Word) : (s.withPending w).cw = s.cw := rfl
@[simp] theorem State.withPending_mvalid (s : State) (w : Word) : (s.withPending w).mvalid = s.mvalid := rfl
@[simp] theorem State.withPending_ver (s : State) (w : Word) : (s.withPending w).ver = s.ver := rfl
@[simp] theorem State.withPending_size (s : State) (w : Word) : (s.withPending w).size = s.size := rfl
@[simp] theorem State.withPending_mat (s : State) (w : Word) : (s.withPending w).mat = s.mat := rfl
@[simp] theorem State.withPending_started (s : State) (w : Word) : (s.withPending w).started = none := rfl
@[simp] theorem State.withPending_cfg (s : State) (w : Word) : (s.withPending w).cfg = s.cfg := rfl
@[simp] theorem State.withPending_resetLine (s : State) (w : Word) : (s.withPending w).resetLine = false := rfl
@[simp] theorem State.withPending_busData (s : State) (w : Word) : (s.withPending w).busData = s.busData := rfl
@[simp] theorem State.withPending_inputs (s : State) (w : Word) : (s.withPending w).inputs = .engine :: s.inputs := rfl

end Sys2Proof.Machine
end

