-- ==== Sys2Proof/Laws/Ops.lean ====
section
/-! SUPPORT. What each shared operation can do, said once: checks and their binds, completion, the buffer file, issuing,
and resets. -/

namespace Sys2Proof.Machine

@[simp] theorem check_ok_bind {α β : Type} (a : α) (f : α → Check β) : ((Except.ok a : Check α) >>= f) = f a := rfl

@[simp] theorem check_pure_bind {α β : Type} (a : α) (f : α → Check β) : ((pure a : Check α) >>= f) = f a := rfl

@[simp] theorem check_error_bind {α β : Type} (c : FaultCode) (f : α → Check β) :
    ((Except.error c : Check α) >>= f) = .error c := rfl

@[simp] theorem check_pure {α : Type} (a : α) : (pure a : Check α) = .ok a := rfl

/-- A bind that ends well ran both parts well. -/
theorem check_bind_eq_ok {α β : Type} {x : Check α} {f : α → Check β} {b : β} :
    (x >>= f) = .ok b ↔ ∃ a, x = .ok a ∧ f a = .ok b := by
  cases x <;> simp

/-- A bind that faults faulted in one of its parts. -/
theorem check_bind_eq_error {α β : Type} {x : Check α} {f : α → Check β} {c : FaultCode} :
    (x >>= f) = .error c ↔ x = .error c ∨ ∃ a, x = .ok a ∧ f a = .error c := by
  cases x <;> simp

@[simp] theorem require_true (c : FaultCode) : require true c = .ok () := rfl

@[simp] theorem require_false (c : FaultCode) : require false c = .error c := rfl

theorem require_eq_ok {b : Bool} {c : FaultCode} {u : Unit} : require b c = .ok u ↔ b = true := by
  cases b <;> simp

theorem require_eq_error {b : Bool} {c d : FaultCode} : require b c = .error d ↔ b = false ∧ c = d := by
  cases b <;> simp

theorem bufferIndex_of_lt {k : Nat} (h : k < 4) : bufferIndex k = .ok ⟨k, h⟩ := by
  simp [bufferIndex, NPOLY, h]

theorem bufferIndex_of_ge {k : Nat} (h : 4 ≤ k) : bufferIndex k = .error .badBuf := by
  simp [bufferIndex, NPOLY, Nat.not_lt.mpr h]

/-- A buffer field that passes its check is below 4 and names the buffer of that number. -/
theorem bufferIndex_eq_ok {k : Nat} {i : Fin 4} : bufferIndex k = .ok i ↔ k = i.val := by
  unfold bufferIndex
  split
  · simp [Fin.ext_iff]
  · rename_i h
    have := i.isLt
    simp only [NPOLY] at h
    simp
    omega

@[simp] theorem finish_ok (s t : State) : finish s (.ok t) = .next t.completed := rfl

@[simp] theorem finish_error (s : State) (c : FaultCode) : finish s (.error c) = .next (s.faulted c) := rfl

/-- Everything a completion can do: commit the effects of a computation that ended well, or take its fault. -/
theorem finish_cases {s t : State} {r : Check State} (h : finish s r = .next t) :
    (∃ u, r = .ok u ∧ t = u.completed) ∨ (∃ c, r = .error c ∧ t = s.faulted c) := by
  cases r with
  | ok u => simp at h; exact .inl ⟨u, rfl, h.symm⟩
  | error c => simp at h; exact .inr ⟨c, rfl, h.symm⟩

/-- A completion always answers a next state. -/
theorem finish_answers (s : State) (r : Check State) : ∃ t, finish s r = .next t := by
  cases r <;> simp

@[simp] theorem PolyBuffers.get_set_same (p : PolyBuffers) (k : Fin 4) (l : List Byte) : (p.set k l).get k = l := by
  match k with
  | 0 => rfl
  | 1 => rfl
  | 2 => rfl
  | 3 => rfl

theorem PolyBuffers.get_set_of_ne (p : PolyBuffers) {j k : Fin 4} (l : List Byte) (h : j ≠ k) :
    (p.set k l).get j = p.get j := by
  match j, k with
  | 0, 1 | 0, 2 | 0, 3 | 1, 0 | 1, 2 | 1, 3 | 2, 0 | 2, 1 | 2, 3 | 3, 0 | 3, 1 | 3, 2 => rfl
  | 0, 0 | 1, 1 | 2, 2 | 3, 3 => exact absurd rfl h

theorem State.issue_busy (s : State) (v w : Word) (h : s.pending = some v) : s.issue w = { s with ovr := true } := by
  simp [State.issue, h]

theorem State.issue_idle (s : State) (w : Word) (h : s.pending = none) :
    s.issue w = { s with pending := some w, started := none, done := false } := by
  simp [State.issue, h]

/-- Everything a start can do: with a command pending and the reset input released it records the BORDER that the command
uses, and otherwise it does nothing. -/
theorem State.start_cases (s : State) :
    (s.resetLine = false ∧ s.pending.isSome = true ∧ s.start = { s with started := some s.borderRead }) ∨
    ((s.resetLine = true ∨ s.pending = none) ∧ s.start = s) := by
  cases hr : s.resetLine <;> cases hp : s.pending <;> simp [State.start, hr, hp]

/-- A start changes nothing but its own record. -/
theorem State.start_frame (s : State) : s.start = { s with started := s.start.started } := by
  obtain ⟨-, -, h⟩ | ⟨-, h⟩ := s.start_cases <;> rw [h]

/-- A start does not change the BORDER that the command uses; what follows it may. -/
@[simp] theorem State.start_borderRead (s : State) : s.start.borderRead = s.borderRead := by
  obtain ⟨-, -, h⟩ | ⟨-, h⟩ := s.start_cases <;> rw [h]
  rfl

theorem State.borderRead_of_started {s : State} {b : BitVec 8} (h : s.started = some b) : s.borderRead = b := by
  simp [State.borderRead, h]

theorem State.borderRead_of_not_started {s : State} (h : s.started = none) : s.borderRead = s.border := by
  simp [State.borderRead, h]

theorem State.writeCtrl_softReset (s : State) (w : Word) (h : w.getLsbD 1 = true) : s.writeCtrl w = s.cleared := by
  simp only [State.writeCtrl, h, if_true]

theorem State.writeCtrl_plain (s : State) (w : Word) (h : w.getLsbD 1 = false) :
    s.writeCtrl w = { s with ie := w.getLsbD 0, border := w.extractLsb' 8 8 } := by
  simp only [State.writeCtrl, h, Bool.false_eq_true, if_false]

/-- A reset is idempotent. -/
@[simp] theorem State.cleared_cleared (s : State) : s.cleared.cleared = s.cleared := rfl

/-- Everything a level of the reset input can do. -/
theorem State.driveReset_cases (s : State) (b : Bool) :
    s.driveReset b = { s.cleared with resetLine := b } ∨ (s.driveReset b = s ∧ b = false ∧ s.resetLine = false) := by
  cases b <;> cases h : s.resetLine <;> simp [State.driveReset, h]

/-- Everything an access can do: read, do nothing, issue, acknowledge, or write CTRL. -/
theorem State.hostAccess_cases (s : State) (a : Access) :
    (∃ d, s.hostAccess a = { s with busData := d }) ∨ s.hostAccess a = s ∨
    (s.resetLine = false ∧ ∃ w, s.hostAccess a = s.issue w ∨ s.hostAccess a = s.writeStatus w ∨
      s.hostAccess a = s.writeCtrl w) := by
  cases a with
  | read addr width => exact .inl ⟨_, rfl⟩
  | write addr width w =>
    simp only [State.hostAccess, State.busWrite]
    cases ho : s.legalOffset addr width with
    | none => exact .inr (.inl rfl)
    | some off =>
      have hr : s.resetLine = false := by
        simp only [State.legalOffset] at ho
        split at ho
        · rename_i hc; simp at hc; exact hc.1.1.1.1
        · cases ho
      simp only [State.writeRegister]
      split
      · exact .inr (.inr ⟨hr, w, .inl rfl⟩)
      · exact .inr (.inr ⟨hr, w, .inr (.inl rfl)⟩)
      · exact .inr (.inr ⟨hr, w, .inr (.inr rfl)⟩)
      · exact .inr (.inl rfl)

end Sys2Proof.Machine
end

