-- ==== Sys2Proof/Laws/Grid.lean ====
section
/-! SUPPORT. The laws of matrix cells: a read after a write, that every construction step keeps the square shape, and that
a write-if-unset step never unsets a cell. -/

namespace Sys2Proof.Machine

@[simp] theorem Cell.orElse_isUnset (x v : Cell) : (x.orElse v).isUnset = (x.isUnset && v.isUnset) := by
  cases x <;> rfl

@[simp] theorem Cell.ofBool_isUnset (b : Bool) : (Cell.ofBool b).isUnset = false := by
  cases b <;> rfl

@[simp] theorem Cell.ofBool_isDark (b : Bool) : (Cell.ofBool b).isDark = b := by
  cases b <;> rfl

theorem squareGrid_modify {n : Nat} {g : Grid} (r : Nat) (f : List Cell → List Cell) (hf : ∀ row, (f row).length = row.length)
    (h : squareGrid n g) : squareGrid n (g.modify r f) := by
  refine ⟨by simp [h.1], fun row hrow => ?_⟩
  obtain ⟨i, hi, rfl⟩ := List.mem_iff_getElem.mp hrow
  rw [List.getElem_modify]
  have hi' : i < g.length := by simpa using hi
  split
  · rw [hf]; exact h.2 _ (List.getElem_mem hi')
  · exact h.2 _ (List.getElem_mem hi')

theorem squareGrid_setCell {n : Nat} {g : Grid} (r c : Nat) (v : Cell) (h : squareGrid n g) :
    squareGrid n (setCell g r c v) :=
  squareGrid_modify r _ (by simp) h

theorem squareGrid_writeCell {n : Nat} {g : Grid} (r c : Nat) (v : Cell) (h : squareGrid n g) :
    squareGrid n (writeCell g r c v) :=
  squareGrid_modify r _ (by simp) h

theorem squareGrid_placeAll {n : Nat} (ps : List Placement) : ∀ {g : Grid}, squareGrid n g → squareGrid n (placeAll g ps) := by
  induction ps with
  | nil => exact fun h => h
  | cons p ps ih => exact fun h => ih (squareGrid_setCell _ _ _ h)

theorem squareGrid_fillData {n : Nat} (m : Fin 8) (cells : List ((Nat × Nat) × Bool)) :
    ∀ {g : Grid}, squareGrid n g → squareGrid n (fillData m g cells) := by
  induction cells with
  | nil => exact fun h => h
  | cons p ps ih => exact fun h => ih (squareGrid_writeCell _ _ _ h)

theorem squareGrid_blank (n : Nat) : squareGrid n (blankGrid n) := by
  refine ⟨by simp [blankGrid], fun row h => ?_⟩
  rw [blankGrid, List.mem_replicate] at h
  simp [h.2]

theorem squareGrid_placeAlignment {n : Nat} (size row col : Nat) {g : Grid} (h : squareGrid n g) :
    squareGrid n (placeAlignment size g row col) := by
  unfold placeAlignment
  split
  · exact squareGrid_placeAll _ h
  · exact h

theorem squareGrid_placeAlignments {n : Nat} (size v : Nat) {g : Grid} (h : squareGrid n g) :
    squareGrid n (placeAlignments size v g) := by
  have inner : ∀ (row : Nat) (cs : List Nat) (g : Grid), squareGrid n g →
      squareGrid n (cs.foldl (fun g col => placeAlignment size g row col) g) := by
    intro row cs
    induction cs with
    | nil => exact fun _ h => h
    | cons c cs ih =>
      intro g h
      exact ih _ (squareGrid_placeAlignment size row c h)
  have outer : ∀ (rs : List Nat) (g : Grid), squareGrid n g → squareGrid n
      (rs.foldl (fun g row => (alignCentres v).foldl (fun g col => placeAlignment size g row col) g) g) := by
    intro rs
    induction rs with
    | nil => exact fun _ h => h
    | cons r rs ih => exact fun g h => ih _ (inner r _ g h)
  exact outer _ g h

theorem squareGrid_skeleton (v : Nat) : squareGrid (sideOf v) (skeleton v) :=
  squareGrid_placeAll _ (squareGrid_placeAlignments _ _ (squareGrid_placeAll _ (squareGrid_blank _)))

theorem squareGrid_placeFormat {n : Nat} (size w : Nat) {g : Grid} (h : squareGrid n g) :
    squareGrid n (placeFormat size g w) :=
  squareGrid_placeAll _ h

theorem squareGrid_placeVersion {n : Nat} (size w : Nat) {g : Grid} (h : squareGrid n g) :
    squareGrid n (placeVersion size g w) :=
  squareGrid_placeAll _ h

theorem squareGrid_placeDark {n : Nat} (size : Nat) (v : Cell) {g : Grid} (h : squareGrid n g) :
    squareGrid n (placeDark size g v) :=
  squareGrid_setCell _ _ _ h

theorem squareGrid_placeData {n : Nat} (size : Nat) (m : Fin 8) (cw : List Byte) {g : Grid} (h : squareGrid n g) :
    squareGrid n (placeData size m cw g) :=
  squareGrid_fillData _ _ h

theorem squareGrid_build (cfg : Config) (cw : List Byte) (v : Nat) (lvl : Fin 4) (mask : Fin 8) (t : Bool) :
    squareGrid (sideOf v) (build cfg cw v lvl mask t) := by
  refine squareGrid_placeData _ _ _ ?_
  unfold buildFixed
  refine squareGrid_placeDark _ _ ?_
  split
  · exact squareGrid_placeVersion _ _ (squareGrid_placeFormat _ _ (squareGrid_skeleton v))
  · exact squareGrid_placeFormat _ _ (squareGrid_skeleton v)

/-- A read after `Set`: the named cell keeps a colour it has and takes `v` otherwise, and every other cell is as before. -/
theorem cellAt_setCell {n : Nat} {g : Grid} (h : squareGrid n g) {r c : Nat} (hr : r < n) (hc : c < n) (v : Cell) (i j : Nat) :
    cellAt (setCell g r c v) i j = if i = r ∧ j = c then (cellAt g r c).orElse v else cellAt g i j := by
  have hr' : r < g.length := h.1 ▸ hr
  have hrow : (g[r]).length = n := h.2 _ (List.getElem_mem hr')
  simp only [cellAt, setCell, List.getD_eq_getElem?_getD, List.getElem?_modify]
  by_cases hi : i = r
  · subst hi
    by_cases hj : j = c
    · subst hj
      have hc' : j < (g[i]).length := hrow ▸ hc
      simp [hr', hc']
    · simp [hr', hj, Ne.symm hj]
  · simp [hi, Ne.symm hi]

/-- A read after the data step's plain write. -/
theorem cellAt_writeCell {n : Nat} {g : Grid} (h : squareGrid n g) {r c : Nat} (hr : r < n) (hc : c < n) (v : Cell) (i j : Nat) :
    cellAt (writeCell g r c v) i j = if i = r ∧ j = c then v else cellAt g i j := by
  have hr' : r < g.length := h.1 ▸ hr
  have hrow : (g[r]).length = n := h.2 _ (List.getElem_mem hr')
  simp only [cellAt, writeCell, List.getD_eq_getElem?_getD, List.getElem?_modify]
  by_cases hi : i = r
  · subst hi
    by_cases hj : j = c
    · subst hj
      have hc' : j < (g[i]).length := hrow ▸ hc
      simp [hr', hc']
    · simp [hr', hj, Ne.symm hj]
  · simp [hi, Ne.symm hi]

/-- COMPLETE says what R54 says: every cell inside SIZE is set. -/
theorem complete_iff {s : State} (h : squareGrid s.size s.mat) :
    s.complete = true ↔ s.mvalid = true ∧ ∀ r c, r < s.size → c < s.size → (cellAt s.mat r c).isUnset = false := by
  have key : ∀ x : Cell, (x != .unset) = true ↔ x.isUnset = false := by intro x; cases x <;> decide
  simp only [State.complete, Bool.and_eq_true, List.all_eq_true, key, and_congr_right_iff]
  intro _
  constructor
  · intro hall r c hr hc
    have hr' : r < s.mat.length := h.1 ▸ hr
    have hc' : c < (s.mat[r]).length := (h.2 _ (List.getElem_mem hr')).symm ▸ hc
    have := hall _ (List.getElem_mem hr') _ (List.getElem_mem hc')
    simpa [cellAt, List.getD_eq_getElem?_getD, hr', hc'] using this
  · intro hall row hrow x hx
    obtain ⟨r, hr, rfl⟩ := List.mem_iff_getElem.mp hrow
    obtain ⟨c, hc, rfl⟩ := List.mem_iff_getElem.mp hx
    have := hall r c (h.1 ▸ hr) (h.2 _ hrow ▸ hc)
    simpa [cellAt, List.getD_eq_getElem?_getD, hr, hc] using this

end Sys2Proof.Machine
end

