-- ==== Sys2Proof/Laws/PerInstr.lean ====
section
/-! SUPPORT. Facts about every command as syntax, one lemma per constructor. -/

namespace Sys2Proof

/-- The fields of a word built from an opcode and a number below 2^24. -/
theorem bits_wordOf_opcode {opc low : Nat} (ho : opc < 256) (hl : low < 2 ^ 24) : bits (wordOf opc low) 31 24 = opc := by
  simp only [bits, wordOf, BitVec.toNat_ofNat]
  omega

/-- A field of the low 24 bits of such a word. -/
theorem bits_wordOf_low {opc low hi lo : Nat} (ho : opc < 256) (hl : low < 2 ^ 24) (h1 : lo ≤ hi) (h2 : hi < 24) :
    bits (wordOf opc low) hi lo = low / 2 ^ lo % 2 ^ (hi + 1 - lo) := by
  have h32 : (opc * 2 ^ 24 + low) % 2 ^ 32 = opc * 2 ^ 24 + low := by omega
  simp only [bits, wordOf, BitVec.toNat_ofNat, h32]
  have hpow : 2 ^ 24 = 2 ^ lo * 2 ^ (24 - lo) := by rw [← Nat.pow_add]; congr 1; omega
  have hpow' : 2 ^ (24 - lo) = 2 ^ (hi + 1 - lo) * 2 ^ (23 - hi) := by rw [← Nat.pow_add]; congr 1; omega
  rw [hpow, show opc * (2 ^ lo * 2 ^ (24 - lo)) + low = low + 2 ^ lo * (opc * 2 ^ (24 - lo)) by ring,
    Nat.add_mul_div_left _ _ (Nat.two_pow_pos lo), hpow',
    show opc * (2 ^ (hi + 1 - lo) * 2 ^ (23 - hi)) = 2 ^ (hi + 1 - lo) * (opc * 2 ^ (23 - hi)) by ring,
    Nat.add_mul_mod_self_left]

theorem testBitField_le (t : Bool) : testBitField t ≤ 2048 := by
  cases t <;> simp [testBitField]

/-- The opcode of a command (R119): the top byte of its row's match. -/
def Instr.opcode (i : Instr) : Nat :=
  i.matchMask.1.toNat / 2 ^ 24

/-- A well-formed command's word carries its opcode in bits 31:24 (R111). -/
def Laws.OpcodeByte.Statement (i : Instr) : Prop :=
  i.WellFormed → bits (encode i) 31 24 = i.opcode

theorem Laws.OpcodeByte.nop : Laws.OpcodeByte.Statement (.nop) := by
  intro h
  simp only [encode]
  exact (bits_wordOf_opcode (by decide) (by omega)).trans (by simp [Instr.opcode, Instr.matchMask])

theorem Laws.OpcodeByte.gexp (n : Nat) : Laws.OpcodeByte.Statement (.gexp n) := by
  intro h
  simp [Instr.WellFormed, Instr.wellFormed] at h
  simp only [encode]
  exact (bits_wordOf_opcode (by decide) (by omega)).trans (by simp [Instr.opcode, Instr.matchMask])

theorem Laws.OpcodeByte.glog (a : Byte) : Laws.OpcodeByte.Statement (.glog a) := by
  intro h
  have := a.isLt
  simp only [encode]
  exact (bits_wordOf_opcode (by decide) (by omega)).trans (by simp [Instr.opcode, Instr.matchMask])

theorem Laws.OpcodeByte.gmul (a : Byte) (b : Byte) : Laws.OpcodeByte.Statement (.gmul a b) := by
  intro h
  have := a.isLt
  have := b.isLt
  simp only [encode]
  exact (bits_wordOf_opcode (by decide) (by omega)).trans (by simp [Instr.opcode, Instr.matchMask])

theorem Laws.OpcodeByte.pclr (d : Nat) : Laws.OpcodeByte.Statement (.pclr d) := by
  intro h
  simp [Instr.WellFormed, Instr.wellFormed] at h
  simp only [encode]
  exact (bits_wordOf_opcode (by decide) (by omega)).trans (by simp [Instr.opcode, Instr.matchMask])

theorem Laws.OpcodeByte.ppush (d : Nat) (b : Byte) : Laws.OpcodeByte.Statement (.ppush d b) := by
  intro h
  simp [Instr.WellFormed, Instr.wellFormed] at h
  have := b.isLt
  simp only [encode]
  exact (bits_wordOf_opcode (by decide) (by omega)).trans (by simp [Instr.opcode, Instr.matchMask])

theorem Laws.OpcodeByte.prd (d : Nat) (idx : Nat) : Laws.OpcodeByte.Statement (.prd d idx) := by
  intro h
  simp [Instr.WellFormed, Instr.wellFormed] at h
  simp only [encode]
  exact (bits_wordOf_opcode (by decide) (by omega)).trans (by simp [Instr.opcode, Instr.matchMask])

theorem Laws.OpcodeByte.plen (d : Nat) : Laws.OpcodeByte.Statement (.plen d) := by
  intro h
  simp [Instr.WellFormed, Instr.wellFormed] at h
  simp only [encode]
  exact (bits_wordOf_opcode (by decide) (by omega)).trans (by simp [Instr.opcode, Instr.matchMask])

theorem Laws.OpcodeByte.pnorm (d : Nat) (a : Nat) (shift : Nat) : Laws.OpcodeByte.Statement (.pnorm d a shift) := by
  intro h
  simp [Instr.WellFormed, Instr.wellFormed] at h
  simp only [encode]
  exact (bits_wordOf_opcode (by decide) (by omega)).trans (by simp [Instr.opcode, Instr.matchMask])

theorem Laws.OpcodeByte.pmul (d : Nat) (a : Nat) (b : Nat) : Laws.OpcodeByte.Statement (.pmul d a b) := by
  intro h
  simp [Instr.WellFormed, Instr.wellFormed] at h
  simp only [encode]
  exact (bits_wordOf_opcode (by decide) (by omega)).trans (by simp [Instr.opcode, Instr.matchMask])

theorem Laws.OpcodeByte.pmod (d : Nat) (a : Nat) (b : Nat) : Laws.OpcodeByte.Statement (.pmod d a b) := by
  intro h
  simp [Instr.WellFormed, Instr.wellFormed] at h
  simp only [encode]
  exact (bits_wordOf_opcode (by decide) (by omega)).trans (by simp [Instr.opcode, Instr.matchMask])

theorem Laws.OpcodeByte.pgen (d : Nat) (n : Nat) : Laws.OpcodeByte.Statement (.pgen d n) := by
  intro h
  simp [Instr.WellFormed, Instr.wellFormed] at h
  simp only [encode]
  exact (bits_wordOf_opcode (by decide) (by omega)).trans (by simp [Instr.opcode, Instr.matchMask])

theorem Laws.OpcodeByte.rsec (d : Nat) (a : Nat) (n : Nat) : Laws.OpcodeByte.Statement (.rsec d a n) := by
  intro h
  simp [Instr.WellFormed, Instr.wellFormed] at h
  simp only [encode]
  exact (bits_wordOf_opcode (by decide) (by omega)).trans (by simp [Instr.opcode, Instr.matchMask])

theorem Laws.OpcodeByte.cclr : Laws.OpcodeByte.Statement (.cclr) := by
  intro h
  simp only [encode]
  exact (bits_wordOf_opcode (by decide) (by omega)).trans (by simp [Instr.opcode, Instr.matchMask])

theorem Laws.OpcodeByte.cpush (b : Byte) : Laws.OpcodeByte.Statement (.cpush b) := by
  intro h
  have := b.isLt
  simp only [encode]
  exact (bits_wordOf_opcode (by decide) (by omega)).trans (by simp [Instr.opcode, Instr.matchMask])

theorem Laws.OpcodeByte.crd (idx : Nat) : Laws.OpcodeByte.Statement (.crd idx) := by
  intro h
  simp [Instr.WellFormed, Instr.wellFormed] at h
  simp only [encode]
  exact (bits_wordOf_opcode (by decide) (by omega)).trans (by simp [Instr.opcode, Instr.matchMask])

theorem Laws.OpcodeByte.cpushp (a : Nat) : Laws.OpcodeByte.Statement (.cpushp a) := by
  intro h
  simp [Instr.WellFormed, Instr.wellFormed] at h
  simp only [encode]
  exact (bits_wordOf_opcode (by decide) (by omega)).trans (by simp [Instr.opcode, Instr.matchMask])

theorem Laws.OpcodeByte.clen : Laws.OpcodeByte.Statement (.clen) := by
  intro h
  simp only [encode]
  exact (bits_wordOf_opcode (by decide) (by omega)).trans (by simp [Instr.opcode, Instr.matchMask])

theorem Laws.OpcodeByte.mskel (v : Nat) : Laws.OpcodeByte.Statement (.mskel v) := by
  intro h
  simp [Instr.WellFormed, Instr.wellFormed] at h
  simp only [encode]
  exact (bits_wordOf_opcode (by decide) (by omega)).trans (by simp [Instr.opcode, Instr.matchMask])

theorem Laws.OpcodeByte.mfmt (t : Bool) (mask : Fin 8) (lvl : Fin 4) : Laws.OpcodeByte.Statement (.mfmt t mask lvl) := by
  intro h
  have := testBitField_le t
  have := mask.isLt
  have := lvl.isLt
  simp only [encode]
  exact (bits_wordOf_opcode (by decide) (by omega)).trans (by simp [Instr.opcode, Instr.matchMask])

theorem Laws.OpcodeByte.mveri (t : Bool) : Laws.OpcodeByte.Statement (.mveri t) := by
  intro h
  have := testBitField_le t
  simp only [encode]
  exact (bits_wordOf_opcode (by decide) (by omega)).trans (by simp [Instr.opcode, Instr.matchMask])

theorem Laws.OpcodeByte.mdark (t : Bool) : Laws.OpcodeByte.Statement (.mdark t) := by
  intro h
  have := testBitField_le t
  simp only [encode]
  exact (bits_wordOf_opcode (by decide) (by omega)).trans (by simp [Instr.opcode, Instr.matchMask])

theorem Laws.OpcodeByte.mdata (mask : Fin 8) : Laws.OpcodeByte.Statement (.mdata mask) := by
  intro h
  have := mask.isLt
  simp only [encode]
  exact (bits_wordOf_opcode (by decide) (by omega)).trans (by simp [Instr.opcode, Instr.matchMask])

theorem Laws.OpcodeByte.mbuild (t : Bool) (mask : Fin 8) (lvl : Fin 4) (v : Nat) : Laws.OpcodeByte.Statement (.mbuild t mask lvl v) := by
  intro h
  simp [Instr.WellFormed, Instr.wellFormed] at h
  have := testBitField_le t
  have := mask.isLt
  have := lvl.isLt
  simp only [encode]
  exact (bits_wordOf_opcode (by decide) (by omega)).trans (by simp [Instr.opcode, Instr.matchMask])

theorem Laws.OpcodeByte.mpen : Laws.OpcodeByte.Statement (.mpen) := by
  intro h
  simp only [encode]
  exact (bits_wordOf_opcode (by decide) (by omega)).trans (by simp [Instr.opcode, Instr.matchMask])

theorem Laws.OpcodeByte.msel (lvl : Fin 4) (v : Nat) : Laws.OpcodeByte.Statement (.msel lvl v) := by
  intro h
  simp [Instr.WellFormed, Instr.wellFormed] at h
  have := lvl.isLt
  simp only [encode]
  exact (bits_wordOf_opcode (by decide) (by omega)).trans (by simp [Instr.opcode, Instr.matchMask])

theorem Laws.OpcodeByte.mauto (lvl : Fin 4) (v : Nat) : Laws.OpcodeByte.Statement (.mauto lvl v) := by
  intro h
  simp [Instr.WellFormed, Instr.wellFormed] at h
  have := lvl.isLt
  simp only [encode]
  exact (bits_wordOf_opcode (by decide) (by omega)).trans (by simp [Instr.opcode, Instr.matchMask])

theorem Laws.OpcodeByte.mrd (row : Nat) (col : Nat) : Laws.OpcodeByte.Statement (.mrd row col) := by
  intro h
  simp [Instr.WellFormed, Instr.wellFormed] at h
  simp only [encode]
  exact (bits_wordOf_opcode (by decide) (by omega)).trans (by simp [Instr.opcode, Instr.matchMask])

theorem Laws.OpcodeByte.mctx (row : Nat) (col : Nat) : Laws.OpcodeByte.Statement (.mctx row col) := by
  intro h
  simp [Instr.WellFormed, Instr.wellFormed] at h
  simp only [encode]
  exact (bits_wordOf_opcode (by decide) (by omega)).trans (by simp [Instr.opcode, Instr.matchMask])

theorem Laws.OpcodeByte.mbrd (row : Nat) (col : Nat) : Laws.OpcodeByte.Statement (.mbrd row col) := by
  intro h
  simp [Instr.WellFormed, Instr.wellFormed] at h
  simp only [encode]
  exact (bits_wordOf_opcode (by decide) (by omega)).trans (by simp [Instr.opcode, Instr.matchMask])

theorem Laws.OpcodeByte.mbsize : Laws.OpcodeByte.Statement (.mbsize) := by
  intro h
  simp only [encode]
  exact (bits_wordOf_opcode (by decide) (by omega)).trans (by simp [Instr.opcode, Instr.matchMask])

end Sys2Proof
end

