-- ==== Sys2Proof/Laws/Polynomial.lean ====
section
/-! SUPPORT. What construction does to a list (42_poly_buffer.md R170): its length, and that it leaves a normalized list. -/

namespace Sys2Proof.Machine

theorem trim_ne_nil (l : List Byte) : trim l ≠ [] := by
  unfold trim
  split <;> simp

theorem trim_cons (x : Byte) (xs : List Byte) :
    trim (x :: xs) = if x = 0 then (if xs = [] then [0] else trim xs) else x :: xs := by
  by_cases hx : x = 0
  · subst hx
    cases xs <;> simp [trim, List.dropWhile]
  · have hb : (x == 0) = false := beq_eq_false_iff_ne.mpr hx
    simp only [trim, List.dropWhile, hb, hx, if_false]

theorem trim_length_le {l : List Byte} (h : l ≠ []) : (trim l).length ≤ l.length := by
  induction l with
  | nil => exact absurd rfl h
  | cons x xs ih =>
    rw [trim_cons]
    split
    · split
      · simp
      · rename_i hxs
        exact Nat.le_succ_of_le (ih hxs)
    · exact Nat.le_refl _

theorem trim_normalized (l : List Byte) : normalized (trim l) = true := by
  induction l with
  | nil => rfl
  | cons x xs ih =>
    rw [trim_cons]
    split
    · split
      · rfl
      · exact ih
    · rename_i hx
      simpa [normalized] using .inr hx

/-- A normalized list is its own trim. -/
theorem trim_of_normalized {l : List Byte} (h : normalized l = true) : trim l = l := by
  cases l with
  | nil => simp [normalized] at h
  | cons x xs =>
    rw [trim_cons]
    by_cases hx : x = 0
    · subst hx
      simp [normalized] at h
      simp [h]
    · rw [if_neg hx]

/-- Everything construction can answer (R170). -/
theorem construct_eq_ok {l r : List Byte} {k : Nat} :
    construct l k = .ok r ↔ l ≠ [] ∧ r = trim l ++ zeros k ∧ (trim l).length + k ≤ PMAX := by
  simp only [construct, check_bind_eq_ok, require_eq_ok]
  constructor
  · rintro ⟨_, h0, _, h1, h2⟩
    simp [zeros] at h0 h1 h2
    exact ⟨h0, h2.symm, h1⟩
  · rintro ⟨h0, rfl, h1⟩
    exact ⟨(), by simpa using h0, (), by simpa [zeros] using h1, rfl⟩

theorem construct_empty (k : Nat) : construct [] k = .error .empty := rfl

/-- Construction without a shift leaves a normalized list no longer than its source (R176). -/
theorem construct_zero_spec {l r : List Byte} (h : construct l 0 = .ok r) :
    normalized r = true ∧ r.length ≤ l.length ∧ r.length ≤ PMAX := by
  obtain ⟨h0, rfl, h1⟩ := construct_eq_ok.mp h
  simp only [zeros, List.replicate_zero, List.append_nil] at *
  exact ⟨trim_normalized l, trim_length_le h0, by omega⟩

@[simp] theorem zeros_length (k : Nat) : (zeros k).length = k := by simp [zeros]

@[simp] theorem rightAlign_length (n : Nat) (m : List Byte) : (rightAlign n m).length = n := by simp [rightAlign]

theorem scale_length {x : Byte} : ∀ {b r : List Byte}, scale x b = .ok r → r.length = b.length
  | [], r, h => by simp [scale] at h; simp [← h]
  | y :: ys, r, h => by
    simp only [scale, check_bind_eq_ok] at h
    obtain ⟨z, -, zs, hz, h⟩ := h
    simp at h
    simp [← h, scale_length hz]

/-- The product's accumulator has the length of R191. -/
theorem convolve_length : ∀ {a b r : List Byte}, b ≠ [] → convolve a b = .ok r → r.length = a.length + b.length - 1
  | [], b, r, _, h => by simp [convolve] at h; simp [← h]
  | x :: xs, b, r, hb, h => by
    simp only [convolve, check_bind_eq_ok] at h
    obtain ⟨row, hrow, rest, hrest, h⟩ := h
    have h1 := scale_length hrow
    have h2 := convolve_length hb hrest
    have hb' : 0 < b.length := List.length_pos_iff.mpr hb
    simp at h
    simp [← h, xorLists, h1, h2]
    omega

end Sys2Proof.Machine
end

