-- ==== Sys2Proof/Laws/Step.lean ====
section
/-! SUPPORT. What a command and a step can do, said once: every command is one completion, and a step is a bus access, a
level of the reset input, a start of execution, or the engine's turn. -/

namespace Sys2Proof.Machine

/-- Every command ends in the one shared completion, from the state it started in (R142). -/
theorem exec_is_completion (i : Instr) (s : State) : ∃ r : Check State, exec i s = finish s r := by
  cases i
  case nop => exact ⟨.ok s, rfl⟩
  case gexp n => exact ⟨.ok (s.setResult (gexp n).toNat), rfl⟩
  case cclr => exact ⟨.ok (s.setCw []), rfl⟩
  case clen => exact ⟨.ok (s.setResult s.cw.length), rfl⟩
  all_goals exact ⟨_, rfl⟩

/-- Everything a pending word can do: fault ILLEGAL, or run the command it decodes to. -/
theorem executeWord_cases {w : Word} {s t : State} (h : executeWord w s = .next t) :
    ((∃ e, decode w = .error e) ∧ t = s.faulted .illegal) ∨ ∃ i, decode w = .ok i ∧ exec i s = .next t := by
  unfold executeWord at h
  split at h
  · rename_i e he
    simp at h
    exact .inl ⟨⟨e, he⟩, h.symm⟩
  · rename_i i hi
    exact .inr ⟨i, hi, h⟩

/-- Everything the engine's turn can do: nothing, or execute the pending word. -/
theorem engineTurn_cases {s t : State} (h : engineTurn s = .next t) :
    t = s ∨ ∃ w, s.ready w ∧ executeWord w s = .next t := by
  unfold engineTurn at h
  split at h
  · cases h; exact .inl rfl
  · rename_i hr
    split at h
    · cases h; exact .inl rfl
    · rename_i w hw
      exact .inr ⟨w, ⟨by simpa using hr, hw⟩, h⟩

/-- Everything a step can do. -/
theorem step_cases {s t : State} (h : step s = .next t) :
    (s.inputs = [] ∧ engineTurn s = .next t) ∨
    ∃ e rest, s.inputs = e :: rest ∧
      ((∃ a, e = .access a ∧ t = State.hostAccess { s with inputs := rest } a) ∨
       (∃ b, e = .resetPin b ∧ t = State.driveReset { s with inputs := rest } b) ∨
       (e = .start ∧ t = State.start { s with inputs := rest }) ∨
       (e = .engine ∧ engineTurn { s with inputs := rest } = .next t)) := by
  unfold step advance at h
  split at h
  · rename_i hi
    exact .inl ⟨hi, h⟩
  · rename_i e rest hi
    refine .inr ⟨e, rest, hi, ?_⟩
    cases e with
    | access a => simp only [perform] at h; cases h; exact .inl ⟨a, rfl, rfl⟩
    | start => simp only [perform] at h; cases h; exact .inr (.inr (.inl ⟨rfl, rfl⟩))
    | engine => exact .inr (.inr (.inr ⟨rfl, h⟩))
    | resetPin b => simp only [perform] at h; cases h; exact .inr (.inl ⟨b, rfl, rfl⟩)

/-- What an access that is no soft reset keeps: a pending command and the BORDER it read at its start, and all else that a
command reads but CTRL.BORDER (R141). -/
theorem State.hostAccess_keeps {s : State} {a : Access} (h : Input.resets s.cfg.base (.access a) = false) :
    (∀ w, s.pending = some w → (s.hostAccess a).pending = some w ∧ (s.hostAccess a).started = s.started) ∧
    (s.hostAccess a).resetLine = s.resetLine ∧
    (s.hostAccess a).inputs = s.inputs ∧ (s.hostAccess a).polys = s.polys ∧ (s.hostAccess a).cw = s.cw ∧
    (s.hostAccess a).mvalid = s.mvalid ∧ (s.hostAccess a).ver = s.ver ∧ (s.hostAccess a).size = s.size ∧
    (s.hostAccess a).mat = s.mat ∧ (s.hostAccess a).cfg = s.cfg ∧ (s.hostAccess a).result = s.result := by
  cases a with
  | read addr width => simp [State.hostAccess]
  | write addr width w =>
    simp only [State.hostAccess, State.busWrite]
    cases ho : s.legalOffset addr width with
    | none => simp
    | some off =>
      obtain ⟨hb, rfl⟩ : s.cfg.base ≤ addr ∧ off = addr - s.cfg.base := by
        simp only [State.legalOffset] at ho
        split at ho
        · rename_i hc
          simp at hc ho
          exact ⟨hc.1.1.2, ho.symm⟩
        · cases ho
      simp only [State.writeRegister]
      split
      · cases hp : s.pending <;> simp [State.issue, hp]
      · simp [State.writeStatus]
      · rename_i hoff
        have haddr : addr = s.cfg.base + 0x0C := by omega
        have hw : w.getLsbD 1 = false := by simpa [Input.resets, haddr] using h
        simp [State.writeCtrl_plain s w hw]
      · simp

end Sys2Proof.Machine
end

