-- ==== Sys2Proof/Machine/Assembler.lean ====
section
/-! DEFINITION. The assembler's line for each command, 30_encoding.md R124: the mnemonic, then its operands separated by
commas, numbers in decimal. Encoding a line's command is `encode`. -/

namespace Sys2Proof.Machine

/-- A polynomial buffer operand, `p0` and on. -/
def bufferName (k : Nat) : String :=
  "p" ++ toString k

/-- A level operand by its letter (R125). -/
def levelOperand (lvl : Fin 4) : String :=
  match LevelName.ofCode lvl with
  | .L => "lvl=L"
  | .M => "lvl=M"
  | .Q => "lvl=Q"
  | .H => "lvl=H"

/-- A line from its mnemonic and operands. -/
def asmLine (mnemonic : String) (operands : List String) : String :=
  match operands with
  | [] => mnemonic
  | _ :: _ => mnemonic ++ " " ++ ", ".intercalate operands

/-- The operand `test` sets T = 1; it is left out otherwise. -/
def testOperand (t : Bool) : List String :=
  if t then ["test"] else []

/-- The command line of a command (R124). -/
def asm (i : Instr) : String :=
  match i with
  | .nop => asmLine "NOP" []
  | .gexp n => asmLine "GEXP" [toString n]
  | .glog a => asmLine "GLOG" [toString a.toNat]
  | .gmul a b => asmLine "GMUL" [toString a.toNat, toString b.toNat]
  | .pclr d => asmLine "PCLR" [bufferName d]
  | .ppush d b => asmLine "PPUSH" [bufferName d, toString b.toNat]
  | .prd d idx => asmLine "PRD" [bufferName d, toString idx]
  | .plen d => asmLine "PLEN" [bufferName d]
  | .pnorm d a shift => asmLine "PNORM" [bufferName d, bufferName a, toString shift]
  | .pmul d a b => asmLine "PMUL" [bufferName d, bufferName a, bufferName b]
  | .pmod d a b => asmLine "PMOD" [bufferName d, bufferName a, bufferName b]
  | .pgen d n => asmLine "PGEN" [bufferName d, toString n]
  | .rsec d a n => asmLine "RSEC" [bufferName d, bufferName a, toString n]
  | .cclr => asmLine "CCLR" []
  | .cpush b => asmLine "CPUSH" [toString b.toNat]
  | .crd idx => asmLine "CRD" [toString idx]
  | .cpushp a => asmLine "CPUSHP" [bufferName a]
  | .clen => asmLine "CLEN" []
  | .mskel v => asmLine "MSKEL" ["v=" ++ toString v]
  | .mfmt t mask lvl => asmLine "MFMT" ([levelOperand lvl, "mask=" ++ toString mask.val] ++ testOperand t)
  | .mveri t => asmLine "MVERI" (testOperand t)
  | .mdark t => asmLine "MDARK" (testOperand t)
  | .mdata mask => asmLine "MDATA" ["mask=" ++ toString mask.val]
  | .mbuild t mask lvl v =>
    asmLine "MBUILD" (["v=" ++ toString v, levelOperand lvl, "mask=" ++ toString mask.val] ++ testOperand t)
  | .mpen => asmLine "MPEN" []
  | .msel lvl v => asmLine "MSEL" ["v=" ++ toString v, levelOperand lvl]
  | .mauto lvl v => asmLine "MAUTO" ["v=" ++ toString v, levelOperand lvl]
  | .mrd row col => asmLine "MRD" [toString row, toString col]
  | .mctx row col => asmLine "MCTX" [toString row, toString col]
  | .mbrd row col => asmLine "MBRD" [toString row, toString col]
  | .mbsize => asmLine "MBSIZE" []

end Sys2Proof.Machine
end

