-- ==== Sys2Proof/Tests/Slice0.lean ====
section
/-! SUPPORT. Our own tests. Expected values come from spec/95_test_vectors.md, whose vector a comment names, or from the
rule it names. Then, for each obligation with hypotheses, concrete states and operands that meet them. -/

namespace Sys2Proof.Tests

-- One kernel evaluation at a time: many at once ask for more memory than the check allows.
set_option Elab.async false

open Sys2Proof Sys2Proof.Machine

/-! ### Decoding: one word per command, written bit by bit from R112 to R116 and R119 -/

theorem test_decode_nop : decodeTableWord 32 0b00000000000000000000000000000000 = some .nop := by decide

theorem test_decode_gexp : decodeTableWord 32 0b00010000000000001111111100000001 = some (.gexp 65281) := by decide

theorem test_decode_glog : decodeTableWord 32 0b00010001000000000000000010001110 = some (.glog 142) := by decide

theorem test_decode_gmul : decodeTableWord 32 0b00010010000000000101001111001010 = some (.gmul 0x53 0xCA) := by decide

theorem test_decode_pclr : decodeTableWord 32 0b00100000001000000000000000000000 = some (.pclr 2) := by decide

theorem test_decode_ppush : decodeTableWord 32 0b00100001001100000000000010010110 = some (.ppush 3 150) := by decide

theorem test_decode_prd : decodeTableWord 32 0b00100010001100000000000100000011 = some (.prd 3 259) := by decide

theorem test_decode_plen : decodeTableWord 32 0b00100011000100000000000000000000 = some (.plen 1) := by decide

theorem test_decode_pnorm : decodeTableWord 32 0b00100100000100100000000000111001 = some (.pnorm 1 2 57) := by decide

theorem test_decode_pmul : decodeTableWord 32 0b00110000001000000001000000000000 = some (.pmul 2 0 1) := by decide

theorem test_decode_pmod : decodeTableWord 32 0b00110001001100010010000000000000 = some (.pmod 3 1 2) := by decide

theorem test_decode_pgen : decodeTableWord 32 0b00110010001000000000000011111111 = some (.pgen 2 255) := by decide

theorem test_decode_rsec : decodeTableWord 32 0b00110011001000010000000000000100 = some (.rsec 2 1 4) := by decide

theorem test_decode_cclr : decodeTableWord 32 0b01000000000000000000000000000000 = some .cclr := by decide

theorem test_decode_cpush : decodeTableWord 32 0b01000001000000000000000001000000 = some (.cpush 0x40) := by decide

theorem test_decode_crd : decodeTableWord 32 0b01000010000000000001000000010011 = some (.crd 4115) := by decide

theorem test_decode_cpushp : decodeTableWord 32 0b01000011000000010000000000000000 = some (.cpushp 1) := by decide

theorem test_decode_clen : decodeTableWord 32 0b01000100000000000000000000000000 = some .clen := by decide

theorem test_decode_mskel : decodeTableWord 32 0b01010000000000000000000000101000 = some (.mskel 40) := by decide

theorem test_decode_mfmt : decodeTableWord 32 0b01010001000000000000101010000000 = some (.mfmt true 2 2) := by decide

theorem test_decode_mveri : decodeTableWord 32 0b01010010000000000000100000000000 = some (.mveri true) := by decide

theorem test_decode_mdark : decodeTableWord 32 0b01010011000000000000000000000000 = some (.mdark false) := by decide

theorem test_decode_mdata : decodeTableWord 32 0b01010100000000000000011000000000 = some (.mdata 6) := by decide

theorem test_decode_mbuild : decodeTableWord 32 0b01010101000000000000001110000111 = some (.mbuild false 3 2 7) := by
  decide

theorem test_decode_mpen : decodeTableWord 32 0b01010110000000000000000000000000 = some .mpen := by decide

theorem test_decode_msel : decodeTableWord 32 0b01010111000000000000000010000111 = some (.msel 2 7) := by decide

theorem test_decode_mauto : decodeTableWord 32 0b01011000000000000000000001000001 = some (.mauto 1 1) := by decide

theorem test_decode_mrd : decodeTableWord 32 0b01100000000000001101000000001000 = some (.mrd 13 8) := by decide

theorem test_decode_mctx : decodeTableWord 32 0b01100001000000001000000000010100 = some (.mctx 8 20) := by decide

theorem test_decode_mbrd : decodeTableWord 32 0b01100010000000010110000000000001 = some (.mbrd 22 1) := by decide

theorem test_decode_mbsize : decodeTableWord 32 0b01100011000000000000000000000000 = some .mbsize := by decide

/-- FP-1, PB-20, PB-22, CB-13, MB-4h, MB-7c, MB-7d, MS-4d, MS-4e, PM-13: words that no row matches. -/
theorem test_decode_refuses_illegal_words :
    [0xFF000000, 0x20000001, 0x21000101, 0x43100000, 0x50000041, 0x51000041, 0x52000001, 0x57000841, 0x58000141,
      0x30201001].all (fun w => decodeTableWord 32 w == none) = true := by decide

/-- R119: 30 other opcodes next to assigned ones are unassigned. -/
theorem test_decode_refuses_neighbours :
    [0x01, 0x0F, 0x13, 0x1F, 0x25, 0x34, 0x45, 0x4F, 0x59, 0x5F, 0x64, 0x70, 0x80, 0xFF].all
      (fun opc => decodeTableWord 32 (opc * 2 ^ 24) == none) = true := by decide

/-- R124, R125: the assembler's lines as the spec writes them. -/
theorem test_asm_lines :
    asm (.gmul 0x53 0xCA) = "GMUL 83, 202" ∧ asm (.pmul 2 0 1) = "PMUL p2, p0, p1" ∧
    asm (.mbuild true 0 1 1) = "MBUILD v=1, lvl=L, mask=0, test" ∧ asm .mbsize = "MBSIZE" := by decide +kernel

/-! ### Well-formedness: one ill-formed term for each check, refused -/

theorem test_wellFormed_refuses_buffers :
    [Instr.pclr 16, .ppush 16 0, .prd 16 0, .plen 16, .pnorm 16 0 0, .pnorm 0 16 0, .pmul 16 0 0, .pmul 0 16 0, .pmul 0 0 16,
      .pmod 16 0 0, .pmod 0 16 0, .pmod 0 0 16, .pgen 16 0, .rsec 16 0 0, .rsec 0 16 0, .cpushp 16].all
      (fun i => !i.wellFormed) = true := by decide

theorem test_wellFormed_refuses_immediates :
    [Instr.gexp 65536, .prd 0 65536, .pnorm 0 0 65536, .pgen 0 65536, .rsec 0 0 65536, .crd 65536].all
      (fun i => !i.wellFormed) = true := by decide

theorem test_wellFormed_refuses_versions :
    [Instr.mskel 64, .mbuild false 0 0 64, .msel 0 64, .mauto 0 64].all (fun i => !i.wellFormed) = true := by decide

theorem test_wellFormed_refuses_coordinates :
    [Instr.mrd 4096 0, .mrd 0 4096, .mctx 4096 0, .mctx 0 4096, .mbrd 4096 0, .mbrd 0 4096].all
      (fun i => !i.wellFormed) = true := by decide

/-- R123: a value that fits its field is well formed even where the command rejects it. -/
theorem test_wellFormed_accepts_rejected_values :
    [Instr.pclr 15, .gexp 65535, .mskel 63, .mrd 4095 4095].all Instr.wellFormed = true := by decide

/-! ### One step from a small state -/

/-- The state after one step that executes the command word `w` on `s`. -/
def ran (w : Word) (s : State) : State :=
  match step (s.withPending w) with
  | .next t => t
  | .fault _ => s
  | .refused _ => s

/-- The state after the event `e` on `s`. -/
def happened (e : Input) (s : State) : State :=
  match step { s with inputs := [e] } with
  | .next t => t
  | .fault _ => s
  | .refused _ => s

/-- A reset block with the given polynomial buffers. -/
def withPolys (a b c d : List Byte) : State :=
  { State.reset with polys := { p0 := a, p1 := b, p2 := c, p3 := d } }

/-- A reset block with the given codewords. -/
def withCw (l : List Byte) : State :=
  { State.reset with cw := l }

/-- A block with a matrix of version `v` whose cells are `g`. -/
def withMatrix (v : Nat) (g : Grid) : State :=
  { State.reset with mvalid := true, ver := v, size := 4 * v + 17, mat := g }

/-- A matrix of version `v` with every cell of one colour. -/
def plain (v : Nat) (x : Cell) : State :=
  withMatrix v (List.replicate (4 * v + 17) (List.replicate (4 * v + 17) x))

/-- A row of cells from the digits of a picture. -/
def rowOf (digits : String) : List Cell :=
  digits.toList.map (fun c => if c = '1' then .dark else .light)

/-- CW-1, the codewords of the source's `small` example. -/
def cw1 : List Byte :=
  [0x40, 0x57, 0x36, 0xD6, 0x16, 0xC6, 0xC0, 0xEC, 0x11, 0xEC, 0x11, 0xEC, 0x11, 0xEC, 0x11, 0xEC, 0x11, 0xEC, 0x11] ++
  [0x1A, 0xF7, 0xAB, 0xF2, 0x26, 0x38, 0x4D]

/-- MB-3, the final build of CW-1 at version 1, level L, mask 0. -/
def mb3 : Grid :=
  ["111111100101101111111", "100000100111001000001", "101110101101101011101", "101110100101001011101",
   "101110100010101011101", "100000100000101000001", "111111101010101111111"].map rowOf ++
  ["000000001101100000000", "111011111111011000100", "110101011100001000111", "101111101110100011111",
   "101011001110001000001", "001011110000101010001", "000000001011010101001"].map rowOf ++
  ["111111101101011101111", "100000101001110110000", "101110101101011100011", "101110100110001100110",
   "101110101000100010101", "100000101110001100010", "111111101100101100011"].map rowOf

/-- HS-1, R144. -/
theorem test_nop_completes :
    ((ran 0x00000000 State.reset).statusWord, (ran 0x00000000 State.reset).result) = (0x00000002, 0) := by decide

/-- GF-4, GF-11. -/
theorem test_gexp : ((ran 0x10000008 State.reset).result, (ran 0x1000FFFF State.reset).result) = (29, 1) := by decide

/-- GF-17. -/
theorem test_glog : (ran 0x110000FF State.reset).result = 175 := by decide

/-- GF-18. -/
theorem test_glog_zero :
    ((ran 0x11000000 State.reset).statusWord, (ran 0x11000000 State.reset).errcmd) = (0x00000906, 0x11000000) := by decide

/-- GF-23. -/
theorem test_gmul : (ran 0x120053CA State.reset).result = 143 := by decide

/-- GF-26. -/
theorem test_gmul_zero : (ran 0x12000005 State.reset).statusWord = 0x00000906 := by decide

/-- PB-10. -/
theorem test_pclr : (ran 0x20200000 (withPolys [1] [2] [7] [3])).polys = { p0 := [1], p1 := [2], p2 := [], p3 := [3] } := by
  decide

/-- PB-21: ILLEGAL before BAD_BUF. -/
theorem test_pclr_illegal_first : (ran 0x20500001 State.reset).statusWord = 0x00000106 := by decide

/-- PB-2. -/
theorem test_ppush :
    let t := ran 0x21000000 (withPolys [1] [] [] [])
    (t.polys.p0, t.result) = ([1, 0], 2) := by decide

/-- PB-18. -/
theorem test_ppush_full : (ran 0x21000001 (withPolys (List.replicate 256 1) [] [] [])).statusWord = 0x00000806 := by
  decide +kernel

/-- PB-5. -/
theorem test_prd : (ran 0x22300003 (withPolys [] [] [] [117, 163, 178, 96])).result = 96 := by decide

/-- PB-6. -/
theorem test_prd_range : (ran 0x22300004 (withPolys [] [] [] [117, 163, 178, 96])).statusWord = 0x00000706 := by decide

/-- PB-7. -/
theorem test_plen : (ran 0x23300000 (withPolys [] [] [] [117, 163, 178, 96])).result = 4 := by decide

/-- PB-11. -/
theorem test_pnorm :
    let t := ran 0x24100002 (withPolys [0, 0, 5, 0] [] [] [])
    (t.polys.p0, t.polys.p1, t.result) = ([0, 0, 5, 0], [5, 0, 0, 0], 4) := by decide

/-- PB-16. -/
theorem test_pnorm_overflow :
    let t := ran 0x24100039 (withPolys (List.replicate 200 1) [9] [] [])
    (t.polys.p1, t.statusWord) = ([9], 0x00000806) := by decide +kernel

/-- PM-2. -/
theorem test_pmul : (ran 0x30201000 (withPolys [1, 2, 3] [4, 5] [] [])).polys.p2 = [4, 13, 6, 15] := by decide +kernel

/-- PM-10: EMPTY before DOMAIN. -/
theorem test_pmul_empty_first : (ran 0x30201000 (withPolys [] [0] [] [])).statusWord = 0x00000606 := by decide

/-- PD-9. -/
theorem test_pmod :
    (ran 0x31201000 (withPolys [1, 2, 3, 4, 5] [1, 15, 54, 120, 64] [] [])).polys.p2 = [13, 53, 124, 69] := by
  decide +kernel

/-- PD-4. -/
theorem test_pmod_by_a_constant : (ran 0x31201000 (withPolys [5, 6, 7] [5] [] [])).statusWord = 0x00000906 := by
  decide +kernel

/-- GEN-7. -/
theorem test_pgen :
    let t := ran 0x32200007 State.reset
    (t.polys.p2, t.result) = ([1, 127, 122, 154, 164, 11, 68, 117], 8) := by decide +kernel

/-- RS-3. -/
theorem test_rsec :
    (ran 0x33100007 (withPolys (cw1.take 19) [] [] [])).polys.p1 = [26, 247, 171, 242, 38, 56, 77] := by decide +kernel

/-- RS-5: the remainder is right-aligned. -/
theorem test_rsec_multiple : (ran 0x33200002 (withPolys [1, 3, 2] [] [] [])).polys.p2 = [0, 0] := by decide +kernel

/-- CB-4. -/
theorem test_cclr :
    let t := ran 0x40000000 { withCw [1, 2] with result := 7 }
    (t.cw, t.result) = ([], 7) := by decide

/-- CB-1. -/
theorem test_cpush :
    let t := ran 0x41000040 State.reset
    (t.cw, t.result, t.cwlen) = ([0x40], 1, 1) := by decide

/-- CB-2. -/
theorem test_crd : (ran 0x42000001 (withCw [0x40, 0x57])).result = 0x57 := by decide

/-- CB-3. -/
theorem test_crd_range : (ran 0x42000002 (withCw [0x40, 0x57])).statusWord = 0x00000706 := by decide

/-- CB-7: the list goes in raw. -/
theorem test_cpushp : (ran 0x43000000 { withCw [9] with polys := { p0 := [0, 0, 7], p1 := [], p2 := [], p3 := [] } }).cw =
    [9, 0, 0, 7] := by decide

/-- CB-11. -/
theorem test_clen : (ran 0x44000000 (withCw cw1)).result = 26 := by decide

/-- MB-1: the cells of the version-1 skeleton that MRD reads, its RESULT and MINFO. -/
theorem test_mskel :
    let t := ran 0x50000001 State.reset
    (t.result, t.minfo, [(0, 0), (1, 1), (7, 7), (8, 6), (6, 9), (8, 8), (13, 8), (20, 20)].map
      (fun p : Nat × Nat => (cellAt t.mat p.1 p.2).code)) =
      (21, 0x00011501, [1, 0, 0, 1, 0, 2, 2, 2]) := by decide +kernel

/-- MB-4g. -/
theorem test_mskel_bad_version : (ran 0x50000029 State.reset).statusWord = 0x00000306 := by decide

/-- P3 step 2: RESULT, and bit 0 at (0, 8) and (8, 44). -/
theorem test_mfmt :
    let t := ran 0x51000280 (plain 7 .unset)
    (t.result, cellAt t.mat 0 8, cellAt t.mat 8 44, cellAt t.mat 3 8) = (0x1CE7, .dark, .dark, .light) := by
  decide +kernel

/-- MB-7j. -/
theorem test_mfmt_test_mode :
    let t := ran 0x51000840 (plain 1 .unset)
    (t.result, cellAt t.mat 8 20, cellAt t.mat 20 8, cellAt t.mat 13 8) = (0, .light, .light, .unset) := by decide +kernel

/-- P3 step 3: RESULT, VA(2) and VB(2). -/
theorem test_mveri :
    let t := ran 0x52000000 (plain 7 .unset)
    (t.result, cellAt t.mat 0 36, cellAt t.mat 36 0, cellAt t.mat 0 34) = (0x07C94, .dark, .dark, .light) := by
  decide +kernel

/-- MB-7e. -/
theorem test_mveri_below_version_7 :
    let t := ran 0x52000000 { plain 6 .unset with result := 5 }
    (t.result, t.mat == (plain 6 .unset).mat) = (0, true) := by decide +kernel

/-- MB-7h. -/
theorem test_mdark :
    let t := ran 0x53000800 (plain 1 .unset)
    (t.result, cellAt t.mat 13 8) = (1, .dark) := by decide +kernel

/-- MB-7i. -/
theorem test_mdark_light_build :
    let t := ran 0x53000800 { plain 1 .unset with cfg := { Config.default with testDarkModule := .light } }
    (t.result, cellAt t.mat 13 8) = (0, .light) := by decide +kernel

/-- MB-3's first data byte, 0x40 under mask 0, in the first eight cells of the zigzag. -/
theorem test_mdata :
    let t := ran 0x54000000 { plain 1 .unset with cw := [0x40] }
    [(20, 20), (20, 19), (19, 20), (19, 19), (18, 20), (18, 19), (17, 20), (17, 19)].map
      (fun p : Nat × Nat => cellAt t.mat p.1 p.2) =
      [.dark, .dark, .light, .dark, .dark, .light, .light, .dark] := by decide +kernel

/-- MB-6: on the skeleton the data step fills 239 cells and completes the matrix. -/
theorem test_mdata_completes :
    let t := ran 0x54000000 (withMatrix 1 (skeleton 1))
    (t.result, t.complete) = (239, true) := by decide +kernel

/-- MB-3, every cell (the word with VER = 1, assumption log 11). -/
theorem test_mbuild :
    let t := ran 0x55000041 (withCw cw1)
    (t.mat, t.result, t.minfo) = (mb3, 208, 0x00031501) := by decide +kernel

/-- The penalties of MB-3. -/
theorem test_mpen :
    let t := ran 0x56000000 (withMatrix 1 mb3)
    (t.pen1, t.pen2, t.pen3, t.pen4, t.pent, t.result) = (175, 129, 0, 0, 304, 304) := by decide +kernel

/-- PEN-5: one pattern of each kind in one row, 80. -/
theorem test_mpen_finder_patterns :
    let t := ran 0x56000000 (withMatrix 1 ((plain 1 .light).mat.set 10 (rowOf "000000010111010000000")))
    (t.pen1, t.pen2, t.pen3, t.pen4) = (774, 1152, 80, 90) := by decide +kernel

/-- MS-1, default build: the winner and its total. -/
theorem test_msel :
    let t := ran 0x57000041 (withCw cw1)
    (t.result, t.pent) = (0, 403) := by decide +kernel

/-- MS-4c, and R142: a fault changes no more than its report. -/
theorem test_msel_bad_version :
    ran 0x57000040 State.reset =
      { State.reset with err := true, errcode := 3, errcmd := 0x57000040, done := true } := by decide +kernel

/-- MS-4e. -/
theorem test_mauto_illegal : (ran 0x58000141 State.reset).statusWord = 0x00000106 := by decide

/-- MB-1. -/
theorem test_mrd : (ran 0x60008008 (withMatrix 1 (skeleton 1))).result = 2 := by decide +kernel

/-- Q-4. -/
theorem test_mrd_dark : (ran 0x6000D008 (withMatrix 1 mb3)).result = 1 := by decide +kernel

/-- Q-1c. -/
theorem test_mctx : (ran 0x6100D008 (withMatrix 1 mb3)).result = 0x191 := by decide +kernel

/-- Q-1f: row 21 and column 21 are outside. -/
theorem test_mctx_corner : (ran 0x61014014 (withMatrix 1 mb3)).result = 0x019 := by decide +kernel

/-- Q-8c. -/
theorem test_mbrd : (ran 0x62015015 { withMatrix 1 mb3 with border := 1 }).result = 1 := by decide +kernel

/-- Q-8d: the frame. -/
theorem test_mbrd_frame : (ran 0x62016016 { withMatrix 1 mb3 with border := 1 }).result = 0 := by decide +kernel

/-- Q-7. -/
theorem test_mbsize : (ran 0x63000000 { withMatrix 1 mb3 with border := 255 }).result = 531 := by decide +kernel

/-- FP-5: INCOMPLETE before RANGE. -/
theorem test_mctx_incomplete_first : (ran 0x61015015 (withMatrix 1 (skeleton 1))).statusWord = 0x00000506 := by
  decide +kernel

/-- BUS-1, BUS-2, BUS-5, BUS-10. -/
theorem test_bus_reads :
    ((happened (.access (.read 0x30 32)) State.reset).busData, (happened (.access (.read 0x34 32)) State.reset).busData,
      (happened (.access (.read 0x30 8)) State.reset).busData, (List.range 4).map (byteLane 0x52535101)) =
      (0x52535101, 0x0000C843, 0, [0x01, 0x51, 0x53, 0x52]) := by decide

/-- BUS-7, BUS-8, BUS-9. -/
theorem test_bus_ctrl :
    ((happened (.access (.write 0x0C 32 0x0000FF01)) State.reset).ctrl,
      (happened (.access (.write 0x0C 32 0xFFFF00FD)) State.reset).ctrl,
      happened (.access (.write 0x0C 32 0x00000103)) { withCw cw1 with ie := true, border := 255 }) =
      (0x0000FF01, 0x00000001, State.reset) := by decide +kernel

/-- HS-2 while busy, HS-3, HS-4, HS-5. -/
theorem test_handshake_status :
    ((happened (.access (.write 0x00 32 0x10000000)) { State.reset with pending := some 0 }).statusWord,
      (happened (.access (.write 0x04 32 0x00000008)) { State.reset with done := true, ovr := true }).statusWord,
      (happened (.access (.write 0x04 32 0x00000004)) { State.reset with done := true, err := true, errcode := 9 }).statusWord,
      (happened (.access (.write 0x04 32 0xFFFFFFF1)) { State.reset with done := true, err := true, errcode := 9 }).statusWord) =
      (0x00000009, 0x00000002, 0x00000002, 0x00000906) := by decide

/-- IRQ-1, IRQ-3. -/
theorem test_irq :
    ((ran 0x00000000 { State.reset with ie := true }).irq,
      (happened (.access (.write 0x0C 32 0)) { State.reset with ie := true, done := true }).irq) = (true, false) := by decide

/-- `withFetchWord` makes the next step run the word, and a program's first command runs so after reset (R31). -/
theorem test_withFetchWord_runs :
    step (State.reset.withFetchWord 32 0x10000008) = .next { State.reset with result := 29, done := true } := by rfl

/-- R392, R141: MBSIZE on a version-1 matrix with BORDER = 1 started before a CTRL write of BORDER = 4 returns 21 + 2. -/
theorem test_start_reads_border :
    let s := { withMatrix 1 mb3 with border := 1, pending := some 0x63000000 }
    (happened .engine (happened (.access (.write 0x0C 32 0x400)) (happened .start s))).result = 23 := by decide +kernel

/-- R392: with the CTRL write before the start it returns 21 + 2*4. -/
theorem test_start_after_ctrl_write :
    let s := { withMatrix 1 mb3 with border := 1, pending := some 0x63000000 }
    (happened .engine (happened .start (happened (.access (.write 0x0C 32 0x400)) s))).result = 29 := by decide +kernel

/-! ### Witnesses: concrete states and operands that meet the hypotheses of each obligation, clause by clause -/

/-- A state that a command pending as `w` has reached, with the engine's turn next. -/
def awaiting (w : Word) (s : State) : State :=
  { s with pending := some w, inputs := [.engine] }

/-- `s` with an access of the host next. -/
def accessed (a : Access) (s : State) : State :=
  { s with inputs := [.access a] }

/-- A block whose reset input is asserted. -/
def held : State :=
  State.reset.driveReset true

theorem witness_DecodeOfEncodeIsTheCommand :
    Instr.WellFormed (.mbuild true 7 3 63) ∧ Instr.WellFormed (.rsec 15 15 65535) ∧ Instr.WellFormed (.mrd 4095 4095) := by
  decide

theorem witness_EveryDecodedWordEncodesBack : decode 0x33FFFFFF#32 = .ok (.rsec 15 15 65535) := by rfl

theorem witness_DecoderFollowsTheEncodingTable :
    decode 0x33FFFFFF#32 = .ok (.rsec 15 15 65535) ∧ (0x33000000#32, 0xFF000000#32) ∈ encodingTable ∧
    0x33FFFFFF#32 &&& 0xFF000000#32 = 0x33000000#32 := ⟨rfl, by decide, by decide⟩

theorem witness_StepRunsTheDecodedCommand :
    ((awaiting 0x10000008 State.reset).engineNext [] ∧ (awaiting 0x10000008 State.reset).ready 0x10000008 ∧
      decode 0x10000008#32 = .ok (.gexp 8)) ∧
    State.engineNext { State.reset with pending := some 0x10000008 } [] :=
  ⟨⟨.inr rfl, ⟨rfl, rfl⟩, rfl⟩, .inl ⟨rfl, rfl⟩⟩

theorem witness_StepRunsTheDecodedCommand_idle : State.reset.engineNext [] ∧ State.reset.pending = none :=
  ⟨.inl ⟨rfl, rfl⟩, rfl⟩

/-- A start with a command pending that has not started, one that has, and none. -/
theorem witness_StepRunsTheDecodedCommand_start :
    State.inputs { State.reset with pending := some 0x63000000, inputs := [.start] } = .start :: [] ∧
    State.ready { State.reset with pending := some 0x63000000, inputs := [.start] } 0x63000000 ∧
    State.ready { State.reset with pending := some 0x63000000, started := some 4, inputs := [.start] } 0x63000000 ∧
    State.pending { State.reset with inputs := [.start] } = none := ⟨rfl, ⟨rfl, rfl⟩, ⟨rfl, rfl⟩, rfl⟩

theorem witness_IllegalWordFaults_opcode :
    (awaiting 0xFF000000 State.reset).engineNext [] ∧ (awaiting 0xFF000000 State.reset).ready 0xFF000000 ∧
    ∀ row ∈ encodingTable, 0xFF000000#32 &&& row.2 ≠ row.1 :=
  ⟨.inr rfl, ⟨rfl, rfl⟩, by simp [encodingTable, rowRepresentatives, Instr.matchMask]⟩

theorem witness_IllegalWordFaults_must_be_zero :
    (awaiting 0x20000001 State.reset).engineNext [] ∧ (awaiting 0x20000001 State.reset).ready 0x20000001 ∧
    ∀ row ∈ encodingTable, 0x20000001#32 &&& row.2 ≠ row.1 :=
  ⟨.inr rfl, ⟨rfl, rfl⟩, by simp [encodingTable, rowRepresentatives, Instr.matchMask]⟩

theorem witness_PendingCommandIsExecutedInTime :
    (awaiting 0x10000008 State.reset).resetHolds ∧ held.resetHolds ∧ held.resetLine = true :=
  ⟨fun h => absurd h (by decide), fun _ => rfl, rfl⟩

/-- A start, a CTRL write without SRST and a dropped CMD write before the engine's turn, not started and started. -/
theorem witness_PendingCommandIsExecutedInTime_no_reset :
    State.ready { State.reset with
      pending := some 0x63000000
      inputs := [.start, .access (.write 0x0C 32 0x101), .access (.write 0x00 32 2), .engine] } 0x63000000 ∧
    (State.started { State.reset with pending := some 0x63000000, started := some 4 }).isSome = true ∧
    ∀ e ∈ [Input.start, .access (.write 0x0C 32 0x101), .access (.write 0x00 32 2), .engine],
      e.resets State.reset.cfg.base = false := ⟨⟨rfl, rfl⟩, rfl, by decide⟩

theorem witness_CmdWriteIssues_idle :
    (accessed (.write 0 32 0x10000008) State.reset).resetLine = false ∧
    (accessed (.write 0 32 0x10000008) State.reset).inputs = .access (.write State.reset.cfg.base 32 0x10000008) :: [] ∧
    (accessed (.write 0 32 0x10000008) State.reset).pending = none := by decide

theorem witness_CmdWriteIssues_busy :
    (accessed (.write 0 32 7) { State.reset with pending := some 0 }).resetLine = false ∧
    (accessed (.write 0 32 7) { State.reset with pending := some 0 }).inputs =
      .access (.write State.reset.cfg.base 32 7) :: [] ∧
    (accessed (.write 0 32 7) { State.reset with pending := some 0 }).pending = some 0 := by decide

theorem witness_StatusLayoutAndClear :
    (accessed (.write 0x04 32 0xFFFFFFFF) State.reset).resetLine = false ∧
    (accessed (.write 0x04 32 0xFFFFFFFF) State.reset).inputs =
      .access (.write (State.reset.cfg.base + 0x04) 32 0xFFFFFFFF) :: [] ∧ (0xFFFFFFFF : Word).getLsbD 1 = true := by
  decide

/-- irq is 1 before each of the three accesses that clear it. -/
theorem witness_StatusLayoutAndClear_irq :
    State.irq { State.reset with ie := true, done := true } = true ∧
    [Access.write 0x04 32 2, .write 0x0C 32 0x100, .write 0x00 32 0].all (fun a =>
      (accessed a { State.reset with ie := true, done := true }).irq &&
      !(accessed a { State.reset with ie := true, done := true }).resetLine &&
      decide ((accessed a { State.reset with ie := true, done := true }).inputs = [.access a])) = true ∧
    (2 : Word).getLsbD 1 = true ∧ (0x100 : Word).getLsbD 0 = false ∧
    State.pending { State.reset with ie := true, done := true } = none := by decide

theorem witness_CtrlWriteAndSoftReset :
    (accessed (.write 0x0C 32 0xFF01) State.reset).resetLine = false ∧
    (accessed (.write 0x0C 32 0xFF01) State.reset).inputs =
      .access (.write (State.reset.cfg.base + 0x0C) 32 0xFF01) :: [] ∧ (0xFF01 : Word).getLsbD 1 = false := by decide

theorem witness_CtrlWriteAndSoftReset_srst :
    (accessed (.write 0x0C 32 3) (withCw cw1)).resetLine = false ∧
    (accessed (.write 0x0C 32 3) (withCw cw1)).inputs = .access (.write ((withCw cw1).cfg.base + 0x0C) 32 3) :: [] ∧
    (3 : Word).getLsbD 1 = true ∧ (0xFFFFFFFF : Word).getLsbD 1 = true := by decide

theorem witness_ResetLeavesTheResetState : (2 : Word).getLsbD 1 = true := by decide

theorem witness_HardwareResetHoldsTheBlock :
    State.inputs { withCw cw1 with inputs := [.resetPin true] } = .resetPin true :: [] ∧
    State.inputs { held with inputs := [.resetPin false] } = .resetPin false :: [] ∧ held.resetLine = true ∧
    (accessed (.read 0x30 32) held).inputs = .access (.read 0x30 32) :: [] ∧
    (accessed (.read 0x30 32) held).resetLine = true ∧
    (accessed (.write 0 32 7) held).inputs = .access (.write 0 32 7) :: [] ∧ (accessed (.write 0 32 7) held).resetLine = true := by
  decide

theorem witness_HardwareResetHoldsTheBlock_engine :
    held.resetLine = true ∧ held.engineNext [] ∧ State.resetLine { held with inputs := [.start] } = true ∧
    State.inputs { held with inputs := [.start] } = .start :: [] :=
  ⟨rfl, .inl ⟨rfl, rfl⟩, rfl, rfl⟩

/-- A block placed at address 64. -/
def placed : State :=
  State.resetWith { Config.default with base := 64 }

theorem witness_RefusedAccessHasNoEffect :
    placed.baseAligned ∧
    [(64, 8), (64 + 0x0E, 32), (60, 32), (128, 32)].all (fun p : Nat × Nat =>
      decide (p.2 ≠ 32 ∨ p.1 % 4 ≠ 0 ∨ p.1 < placed.cfg.base ∨ placed.cfg.base + 64 ≤ p.1) &&
      decide ((accessed (.read p.1 p.2) placed).inputs = [.access (.read p.1 p.2)]) &&
      decide ((accessed (.write p.1 p.2 7) placed).inputs = [.access (.write p.1 p.2 7)])) = true :=
  ⟨by unfold State.baseAligned; decide, by decide⟩

theorem witness_LegalReadsReturnRegisters :
    (accessed (.read (64 + 0x3C) 32) placed).resetLine = false ∧ 0x3C < 64 ∧ 0x3C % 4 = 0 ∧
    (accessed (.read (64 + 0x3C) 32) placed).inputs = .access (.read (placed.cfg.base + 0x3C) 32) :: [] ∧
    (accessed (.write (64 + 0x08) 32 7) placed).inputs = .access (.write (placed.cfg.base + 0x08) 32 7) :: [] := by decide

/-- A matrix of one colour has the shape R53 gives it. -/
theorem plain_matrixShape {v : Nat} (h1 : 1 ≤ v) (h2 : v ≤ 40) (x : Cell) : (plain v x).matrixShape := by
  refine ⟨fun h => absurd h (by simp [plain, withMatrix]), fun _ => ⟨h1, h2, rfl, ?_, ?_⟩⟩
  · simp [plain, withMatrix]
  · intro row hrow
    simp only [plain, withMatrix, List.mem_replicate] at hrow
    simp [plain, withMatrix, hrow.2]

/-- The reset state has the shape of a block without a matrix. -/
theorem reset_matrixShape : State.reset.matrixShape :=
  ⟨fun _ => ⟨rfl, rfl⟩, fun h => absurd h (by decide)⟩

theorem witness_MinfoLayout :
    State.reset.matrixShape ∧ (plain 1 .unset).matrixShape ∧ (plain 40 .dark).matrixShape ∧ 176 < (plain 40 .dark).size :=
  ⟨reset_matrixShape, plain_matrixShape (by decide) (by decide) _, plain_matrixShape (by decide) (by decide) _, by decide⟩

theorem witness_ConstantRegistersAndCwlen :
    (withCw (List.replicate 4096 0)).cwBounded ∧ (withCw (List.replicate 4096 0)).cw.length = 4096 := by
  simp [State.cwBounded, withCw, CWMAX, -List.reduceReplicate]

/-- A block with nothing but a pending command and a matrix of one colour meets the invariant. -/
theorem awaiting_plain_inv {v : Nat} (h1 : 1 ≤ v) (h2 : v ≤ 40) (w : Word) (x : Cell) : (awaiting w (plain v x)).Inv where
  polysBounded := ⟨Nat.zero_le _, Nat.zero_le _, Nat.zero_le _, Nat.zero_le _⟩
  cwBounded := Nat.zero_le _
  errcodeConsistent := ⟨fun _ => rfl, fun h => absurd h (by simp [awaiting, plain, withMatrix, State.reset, State.resetWith])⟩
  doneOnlyWhenIdle := fun _ => rfl
  startedOnlyWhenPending := fun _ => rfl
  penaltyTotal := rfl
  matrixShape := plain_matrixShape h1 h2 x
  resetHolds := fun h => absurd h (by simp [awaiting, plain, withMatrix, State.reset, State.resetWith])
  baseAligned := rfl

theorem witness_StepKeepsTheInvariant :
    (awaiting 0x51000280 (plain 40 .unset)).Inv ∧ ∃ t, step (awaiting 0x51000280 (plain 40 .unset)) = .next t :=
  ⟨awaiting_plain_inv (by decide) (by decide) _ _, _, rfl⟩

theorem witness_ColumnSixStaysSet :
    (awaiting 0x51000280 (plain 1 .dark)).matrixShape ∧ (awaiting 0x51000280 (plain 1 .dark)).columnSixSet ∧
    (awaiting 0x51000280 (plain 1 .dark)).mvalid = true ∧ ∃ t, step (awaiting 0x51000280 (plain 1 .dark)) = .next t := by
  refine ⟨plain_matrixShape (by decide) (by decide) _, ?_, rfl, _, rfl⟩
  unfold State.columnSixSet
  decide +kernel

theorem witness_FaultChangesOnlyItsReport :
    (awaiting 0x11000000 State.reset).pending = some 0x11000000 ∧
    exec (.glog 0) (awaiting 0x11000000 State.reset) = .next ((awaiting 0x11000000 State.reset).afterFault 0x11000000 9) ∧
    (awaiting 0x44000000 State.reset).pending = some 0x44000000 ∧
    ∃ t, exec .clen (awaiting 0x44000000 State.reset) = .next t := ⟨rfl, rfl, rfl, _, rfl⟩

theorem witness_CommandsWriteOnlyTheirState :
    Instr.polyDestination (.ppush 1 9) ≠ some (2 : Fin 4).val ∧ Instr.writesCodewords (.ppush 1 9) = false ∧
    Instr.startsMatrix (.ppush 1 9) = false ∧ Instr.fillsCells (.ppush 1 9) = false ∧
    Instr.writesPenalties (.ppush 1 9) = false ∧ Instr.keepsResult .cclr = true ∧
    (∃ t, exec (.ppush 1 9) State.reset = .next t) ∧ ∃ t, exec .cclr State.reset = .next t :=
  ⟨by decide, rfl, rfl, rfl, rfl, rfl, ⟨_, rfl⟩, _, rfl⟩

theorem witness_CompleteMatrixIsOnlyReplaced_query :
    Instr.isQuery (.mrd 20 20) = true ∧ (awaiting 0x60014014 (plain 1 .dark)).pending = some 0x60014014 ∧
    ∃ t, exec (.mrd 20 20) (awaiting 0x60014014 (plain 1 .dark)) = .next t := ⟨rfl, rfl, _, rfl⟩

theorem witness_CompleteMatrixIsOnlyReplaced_fill :
    (plain 1 .dark).matrixShape ∧ (plain 1 .dark).complete = true ∧ Instr.startsMatrix (.mdata 3) = false ∧
    ∃ t, exec (.mdata 3) (plain 1 .dark) = .next t :=
  ⟨plain_matrixShape (by decide) (by decide) _, by decide +kernel, rfl, _, rfl⟩

theorem witness_ResetWinsOverCompletion :
    (awaiting 0x10000008 State.reset).resetLine = false ∧ (3 : Word).getLsbD 1 = true := by decide

theorem witness_HostWriteRacesCompletion :
    (awaiting 0x10000008 State.reset).ready 0x10000008 ∧
    step { awaiting 0x10000008 State.reset with inputs := .engine :: [] } =
      .next { State.reset with result := 29, done := true } ∧
    (0xFFFFFFFF : Word).getLsbD 1 = true := ⟨⟨rfl, rfl⟩, rfl, by decide⟩

/-- The CTRL write of R392 against a pending MBSIZE that has not started. -/
theorem witness_HostWriteRacesCompletion_ctrl :
    (awaiting 0x63000000 (plain 1 .dark)).ready 0x63000000 ∧ (awaiting 0x63000000 (plain 1 .dark)).started = none ∧
    step { awaiting 0x63000000 (plain 1 .dark) with inputs := .engine :: [] } =
      .next { plain 1 .dark with result := 21, done := true } ∧
    (0xFF01 : Word).getLsbD 1 = false := ⟨⟨rfl, rfl⟩, rfl, by rfl, by decide⟩

theorem witness_HandshakeRunsTheCommand :
    Instr.WellFormed (.gexp 8) ∧
    State.resetLine { placed with inputs := commandEvents 64 2 (.gexp 8) } = false ∧
    State.pending { placed with inputs := commandEvents 64 2 (.gexp 8) } = none ∧
    State.inputs { placed with inputs := commandEvents 64 2 (.gexp 8) } = commandEvents placed.cfg.base 2 (.gexp 8) ++ [] ∧
    ∃ t, exec (.gexp 8) { placed with
      inputs := commandEvents 64 2 (.gexp 8), pending := some (encode (.gexp 8)), started := none, done := false } = .next t :=
  ⟨by decide, rfl, rfl, rfl, _, rfl⟩

theorem witness_GaloisTablesFollowTheRules : 7 < 8 ∧ (255 < 256 ∧ 8 ≤ 255) ∧ 254 < 255 ∧ (255 : Byte) ≠ 0 := by decide

theorem witness_GexpReturnsThePower : 65280 % 255 = 0 := by decide

theorem witness_GlogReturnsTheExponent :
    (142 : Byte) ≠ 0 ∧ (awaiting 0x11000000 State.reset).pending = some 0x11000000 := by decide

theorem witness_GmulReturnsTheProduct :
    ((255 : Byte) ≠ 0 ∧ (1 : Byte) ≠ 0) ∧ ((0 : Byte) = 0 ∨ (5 : Byte) = 0) ∧ ((5 : Byte) = 0 ∨ (0 : Byte) = 0) ∧
    (awaiting 0x12000005 State.reset).pending = some 0x12000005 := by decide

/-- A polynomial of `n` ones. -/
def ones (n : Nat) : List Byte :=
  List.replicate n 1

theorem witness_PolyBufferCommandsComplete :
    ((withPolys (ones 255) [] [] []).polys.get 0).length < 256 ∧
    3 < ((withPolys [] [] [] [117, 163, 178, 96]).polys.get 3).length := by decide +kernel

theorem witness_PnormTrimsAndShifts_fits :
    (withPolys (zeros 2 ++ 5 :: ones 199) [] [] []).polys.get 0 = zeros 2 ++ 5 :: ones 199 ∧ (5 : Byte) ≠ 0 ∧
    (ones 199).length + 1 + 56 ≤ 256 := by decide +kernel

theorem witness_PnormTrimsAndShifts_overflow :
    (awaiting 7 (withPolys (zeros 2 ++ 5 :: ones 199) [] [] [])).polys.get 0 = zeros 2 ++ 5 :: ones 199 ∧
    (5 : Byte) ≠ 0 ∧ 256 < (ones 199).length + 1 + 57 ∧
    (awaiting 7 (withPolys (zeros 2 ++ 5 :: ones 199) [] [] [])).pending = some 7 := by decide +kernel

theorem witness_PnormTrimsAndShifts_zero :
    (awaiting 7 (withPolys (zeros 3) [] [] [])).polys.get 0 = zeros (2 + 1) ∧ 255 < 256 ∧ 256 ≤ 256 ∧
    (awaiting 7 (withPolys (zeros 3) [] [] [])).pending = some 7 := by decide

theorem witness_PnormTrimsAndShifts_empty :
    (awaiting 7 State.reset).polys.get 3 = [] ∧ (awaiting 7 State.reset).pending = some 7 := by decide

/-- A block with full buffers and the command word 7 pending. -/
def full : State :=
  { awaiting 7 (withPolys (ones 256) [] [] []) with cw := List.replicate 4096 0 }

theorem witness_BufferChecksFault :
    full.pending = some 7 ∧ 4 ≤ 4 ∧ (4 ≤ 4 ∨ 4 ≤ 3) ∧ (4 ≤ 3 ∨ 4 ≤ 4) ∧ (4 ≤ 4 ∨ 4 ≤ 0 ∨ 4 ≤ 0) ∧ (4 ≤ 0 ∨ 4 ≤ 0 ∨ 4 ≤ 4) ∧
    256 ≤ (full.polys.get 0).length ∧ (full.polys.get 0).length ≤ 256 ∧ 4096 ≤ full.cw.length ∧ full.cw.length ≤ 4096 ∧
    4096 < full.cw.length + (full.polys.get 0).length := by
  simp [full, awaiting, withPolys, ones, PolyBuffers.get, -List.reduceReplicate]

theorem witness_PmulConvolves :
    (withPolys (ones 200) (0 :: ones 57) [] []).polys.get 0 ≠ [] ∧ (withPolys (ones 200) (0 :: ones 57) [] []).polys.get 1 ≠ [] ∧
    ones 200 = trim ((withPolys (ones 200) (0 :: ones 57) [] []).polys.get 0) ∧
    ones 57 = trim ((withPolys (ones 200) (0 :: ones 57) [] []).polys.get 1) ∧ 0 ∉ ones 200 ∧ 0 ∉ ones 57 ∧
    (ones 200).length + (ones 57).length - 1 ≤ 256 := by decide +kernel

/-- Buffers of at most PMAX coefficients, checked. -/
theorem bounded {a b c d : List Byte} (w : Word)
    (h : a.length ≤ 256 ∧ b.length ≤ 256 ∧ c.length ≤ 256 ∧ d.length ≤ 256) :
    (awaiting w (withPolys a b c d)).polysBounded := h

theorem witness_PmulFaults_empty :
    (awaiting 7 (withPolys [2] [] [] [])).pending = some 7 ∧ (awaiting 7 (withPolys [2] [] [] [])).polysBounded ∧
    [2] = trim ((awaiting 7 (withPolys [2] [] [] [])).polys.get 0) ∧
    [0] = trim ((awaiting 7 (withPolys [2] [] [] [])).polys.get 1) ∧
    ((awaiting 7 (withPolys [2] [] [] [])).polys.get 0 = [] ∨ (awaiting 7 (withPolys [2] [] [] [])).polys.get 1 = []) :=
  ⟨rfl, bounded 7 (by decide), by decide, by decide, by decide⟩

theorem witness_PmulFaults_overflow :
    (awaiting 7 (withPolys (ones 200) (ones 58) [] [])).pending = some 7 ∧
    (awaiting 7 (withPolys (ones 200) (ones 58) [] [])).polysBounded ∧
    ones 200 = trim ((awaiting 7 (withPolys (ones 200) (ones 58) [] [])).polys.get 0) ∧
    ones 58 = trim ((awaiting 7 (withPolys (ones 200) (ones 58) [] [])).polys.get 1) ∧
    (awaiting 7 (withPolys (ones 200) (ones 58) [] [])).polys.get 0 ≠ [] ∧
    (awaiting 7 (withPolys (ones 200) (ones 58) [] [])).polys.get 1 ≠ [] ∧
    256 < (ones 200).length + (ones 58).length - 1 :=
  ⟨rfl, bounded 7 (by decide +kernel), by decide +kernel, by decide +kernel, by decide +kernel, by decide +kernel,
    by decide +kernel⟩

theorem witness_PmulFaults_domain :
    (awaiting 7 (withPolys [2, 0, 1] [1, 1] [] [])).pending = some 7 ∧
    (awaiting 7 (withPolys [2, 0, 1] [1, 1] [] [])).polysBounded ∧
    [2, 0, 1] = trim ((awaiting 7 (withPolys [2, 0, 1] [1, 1] [] [])).polys.get 0) ∧
    [1, 1] = trim ((awaiting 7 (withPolys [2, 0, 1] [1, 1] [] [])).polys.get 1) ∧
    (awaiting 7 (withPolys [2, 0, 1] [1, 1] [] [])).polys.get 0 ≠ [] ∧
    (awaiting 7 (withPolys [2, 0, 1] [1, 1] [] [])).polys.get 1 ≠ [] ∧
    [2, 0, 1].length + [1, 1].length - 1 ≤ 256 ∧ ((0 : Byte) ∈ [2, 0, 1] ∨ (0 : Byte) ∈ [1, 1]) :=
  ⟨rfl, bounded 7 (by decide), by decide, by decide, by decide, by decide, by decide, by decide⟩

theorem witness_PmulCommutes : (awaiting 7 (withPolys [1, 2, 3] [4, 5] [] [])).polysBounded := bounded 7 (by decide)

theorem witness_RemainderFollowsTheReduction :
    normalized [1, 0, 0, 0, 0] = true ∧ normalized [1, 3, 2] = true ∧ [1, 3, 2].length ≤ [1, 0, 0, 0, 0].length ∧
    [1, 0, 0, 0, 0].length ≤ 256 ∧ [(1 : Byte), 0, 0, 0, 0] ≠ [0] ∧ (0 : Byte) ∉ [1, 3, 2] ∧
    (0 : Int) = (logOf ([1, 0, 0, 0, 0].headD 0) : Int) - logOf ([1, 3, 2].headD 0) ∧
    pmod [1, 0, 0, 0, 0] [1, 3, 2] = .ok [15, 14] :=
  ⟨by decide, by decide, by decide, by decide, by decide, by decide, by decide, by rfl⟩

theorem witness_RemainderFollowsTheReduction_shorter :
    normalized [1, 2] = true ∧ normalized [1, 0, 1] = true ∧ [1, 2].length < [1, 0, 1].length := by decide

theorem witness_PmodCompletes_divides :
    (awaiting 7 (withPolys [1, 0, 0] [1, 1] [] [])).polysBounded ∧
    (awaiting 7 (withPolys [1, 0, 0] [1, 1] [] [])).polys.get 0 ≠ [] ∧
    (awaiting 7 (withPolys [1, 0, 0] [1, 1] [] [])).polys.get 1 ≠ [] ∧
    [1, 0, 0] = trim ((awaiting 7 (withPolys [1, 0, 0] [1, 1] [] [])).polys.get 0) ∧
    [1, 1] = trim ((awaiting 7 (withPolys [1, 0, 0] [1, 1] [] [])).polys.get 1) ∧
    2 ≤ [1, 1].length ∧ (0 : Byte) ∉ [1, 1] :=
  ⟨bounded 7 (by decide), by decide, by decide, by decide, by decide, by decide, by decide⟩

theorem witness_PmodCompletes_shorter :
    (awaiting 7 (withPolys [1, 2] [1, 0, 1] [] [])).polysBounded ∧
    (awaiting 7 (withPolys [1, 2] [1, 0, 1] [] [])).polys.get 0 ≠ [] ∧
    (awaiting 7 (withPolys [1, 2] [1, 0, 1] [] [])).polys.get 1 ≠ [] ∧
    [1, 2] = trim ((awaiting 7 (withPolys [1, 2] [1, 0, 1] [] [])).polys.get 0) ∧
    [1, 0, 1] = trim ((awaiting 7 (withPolys [1, 2] [1, 0, 1] [] [])).polys.get 1) ∧ [1, 2].length < [1, 0, 1].length :=
  ⟨bounded 7 (by decide), by decide, by decide, by decide, by decide, by decide⟩

theorem witness_PmodFaults_empty :
    (awaiting 7 State.reset).pending = some 7 ∧ (awaiting 7 State.reset).polysBounded ∧
    [0] = trim ((awaiting 7 State.reset).polys.get 0) ∧ [0] = trim ((awaiting 7 State.reset).polys.get 1) ∧
    ((awaiting 7 State.reset).polys.get 0 = [] ∨ (awaiting 7 State.reset).polys.get 1 = []) :=
  ⟨rfl, bounded 7 (by decide), by decide, by decide, by decide⟩

theorem witness_PmodFaults_constant :
    (awaiting 7 (withPolys [9] [9] [] [])).pending = some 7 ∧ (awaiting 7 (withPolys [9] [9] [] [])).polysBounded ∧
    [9] = trim ((awaiting 7 (withPolys [9] [9] [] [])).polys.get 0) ∧
    [9] = trim ((awaiting 7 (withPolys [9] [9] [] [])).polys.get 1) ∧
    (awaiting 7 (withPolys [9] [9] [] [])).polys.get 0 ≠ [] ∧ (awaiting 7 (withPolys [9] [9] [] [])).polys.get 1 ≠ [] ∧
    ([9].length = 1 ∨ ((0 : Byte) ∈ [9] ∧ [9].length ≤ [9].length)) :=
  ⟨rfl, bounded 7 (by decide), by decide, by decide, by decide, by decide, by decide⟩

theorem witness_PmodFaults_zero_coefficient :
    (awaiting 7 (withPolys [1, 2, 3] [1, 0, 1] [] [])).pending = some 7 ∧
    (awaiting 7 (withPolys [1, 2, 3] [1, 0, 1] [] [])).polysBounded ∧
    [1, 2, 3] = trim ((awaiting 7 (withPolys [1, 2, 3] [1, 0, 1] [] [])).polys.get 0) ∧
    [1, 0, 1] = trim ((awaiting 7 (withPolys [1, 2, 3] [1, 0, 1] [] [])).polys.get 1) ∧
    (awaiting 7 (withPolys [1, 2, 3] [1, 0, 1] [] [])).polys.get 0 ≠ [] ∧
    (awaiting 7 (withPolys [1, 2, 3] [1, 0, 1] [] [])).polys.get 1 ≠ [] ∧
    ([1, 0, 1].length = 1 ∨ ((0 : Byte) ∈ [1, 0, 1] ∧ [1, 0, 1].length ≤ [1, 2, 3].length)) :=
  ⟨rfl, bounded 7 (by decide), by decide, by decide, by decide, by decide, by decide⟩

theorem witness_PgenBuildsTheGenerator :
    (254 < 255 ∧ 3 < 255 ∧ gen 3 = .ok [1, 7, 14, 8]) ∧ 255 ≤ 255 ∧ 254 ≤ 254 ∧ 256 ≤ 256 ∧
    (awaiting 0x32000100 State.reset).pending = some 0x32000100 :=
  ⟨⟨by decide, by decide, by rfl⟩, by decide, by decide, by decide, by decide⟩

theorem witness_RsecReturnsTheCodewords :
    1 ≤ 254 ∧ 254 ≤ 254 ∧ (∃ x ∈ (withPolys [0, 5, 6] [] [] []).polys.get 0, x ≠ 0) ∧
    [5, 6] = trim ((withPolys [0, 5, 6] [] [] []).polys.get 0) ∧ [5, 6].length + 254 ≤ 256 := by decide

theorem witness_RsecFaults_empty :
    (awaiting 7 State.reset).pending = some 7 ∧ (awaiting 7 State.reset).polysBounded ∧
    [0] = trim ((awaiting 7 State.reset).polys.get 0) ∧ (awaiting 7 State.reset).polys.get 0 = [] :=
  ⟨rfl, bounded 7 (by decide), by decide, by decide⟩

theorem witness_RsecFaults_overflow :
    (awaiting 7 (withPolys [5, 6] [] [] [])).pending = some 7 ∧ (awaiting 7 (withPolys [5, 6] [] [] [])).polysBounded ∧
    [5, 6] = trim ((awaiting 7 (withPolys [5, 6] [] [] [])).polys.get 0) ∧
    (awaiting 7 (withPolys [5, 6] [] [] [])).polys.get 0 ≠ [] ∧
    (256 ≤ 255 ∨ 256 < [5, 6].length + 255) ∧ (256 ≤ 256 ∨ 256 < [5, 6].length + 256) :=
  ⟨rfl, bounded 7 (by decide), by decide, by decide, by decide, by decide⟩

theorem witness_RsecFaults_domain :
    (awaiting 7 (withPolys [5] [] [] [])).pending = some 7 ∧ (awaiting 7 (withPolys [5] [] [] [])).polysBounded ∧
    [5] = trim ((awaiting 7 (withPolys [5] [] [] [])).polys.get 0) ∧
    (awaiting 7 (withPolys [5] [] [] [])).polys.get 0 ≠ [] ∧
    (255 ≤ 255 ∧ [5].length + 255 ≤ 256 ∧ (255 = 0 ∨ 255 = 255 ∨ ∀ x ∈ (withPolys [5] [] [] []).polys.get 0, x = 0)) ∧
    (0 ≤ 255 ∧ [5].length + 0 ≤ 256 ∧ (0 = 0 ∨ 0 = 255 ∨ ∀ x ∈ (withPolys [5] [] [] []).polys.get 0, x = 0)) :=
  ⟨rfl, bounded 7 (by decide), by decide, by decide, by decide, by decide⟩

theorem witness_RsecFaults_all_zero :
    (awaiting 7 (withPolys [0, 0] [] [] [])).pending = some 7 ∧ (awaiting 7 (withPolys [0, 0] [] [] [])).polysBounded ∧
    [0] = trim ((awaiting 7 (withPolys [0, 0] [] [] [])).polys.get 0) ∧
    (awaiting 7 (withPolys [0, 0] [] [] [])).polys.get 0 ≠ [] ∧ 3 ≤ 255 ∧ [0].length + 3 ≤ 256 ∧
    ∀ x ∈ (awaiting 7 (withPolys [0, 0] [] [] [])).polys.get 0, x = 0 :=
  ⟨rfl, bounded 7 (by decide), by decide, by decide, by decide, by decide, by decide⟩

theorem witness_CodewordCommandsComplete :
    (withCw (List.replicate 4095 0)).cw.length < 4096 ∧ 4094 < (withCw (List.replicate 4095 0)).cw.length ∧
    State.cw { full with cw := List.replicate 3840 0 } = List.replicate 3840 0 ∧
    (List.replicate 3840 (0 : Byte)).length + (full.polys.get 0).length ≤ 4096 := by
  simp [full, awaiting, withPolys, withCw, ones, PolyBuffers.get, -List.reduceReplicate]

theorem witness_MskelStartsTheMatrix :
    (1 ≤ 1 ∧ 1 ≤ 40 ∧ 20 < 4 * 1 + 17) ∧ 1 ≤ 40 ∧ 40 ≤ 40 ∧ 176 < 4 * 40 + 17 := by decide

/-- The corner of the version-1 matrix opposite the finders is no cell of the skeleton, and the alignment centre there is one
of version 2. -/
theorem witness_MskelStartsTheMatrix_cells : ¬ skeletonSets 1 20 20 ∧ skeletonSets 2 20 20 := by
  constructor
  · rintro (h | h | h | h | h | ⟨R, C, ⟨hR, _⟩, _⟩)
    · exact absurd h (by decide)
    · exact absurd h (by decide)
    · exact absurd h (by decide)
    · exact absurd h (by decide)
    · exact absurd h (by decide)
    · exact absurd hR (by simp [alignCentres, alignTable])
  · exact .inr (.inr (.inr (.inr (.inr ⟨18, 18, ⟨by decide, by decide, by decide, by decide, by decide⟩, by decide⟩))))

/-- The bottom-left finder of the largest version, its separator corner that lies inside the matrix. -/
theorem witness_SkeletonHasFindersAndSeparators :
    1 ≤ 40 ∧ 40 ≤ 40 ∧
    (((4 * (40 : Nat) + 10 : Int) = 0 ∧ (0 : Int) = 0) ∨ ((4 * (40 : Nat) + 10 : Int) = 4 * (40 : Nat) + 10 ∧ (0 : Int) = 0) ∨
      ((4 * (40 : Nat) + 10 : Int) = 0 ∧ (0 : Int) = 4 * (40 : Nat) + 10)) ∧
    (-1 : Int) ≤ -1 ∧ (-1 : Int) ≤ 7 ∧ (-1 : Int) ≤ 7 ∧ (7 : Int) ≤ 7 ∧ (0 : Int) ≤ 4 * (40 : Nat) + 10 + -1 ∧
    (4 * (40 : Nat) + 10 + -1 : Int) < 4 * (40 : Nat) + 17 ∧ (0 : Int) ≤ 0 + 7 ∧ (0 + 7 : Int) < 4 * (40 : Nat) + 17 := by
  decide

theorem witness_SkeletonHasTimingAndAlignmentPatterns :
    (1 ≤ 40 ∧ 40 ≤ 40 ∧ 8 ≤ 168 ∧ 168 ≤ 4 * 40 + 8) ∧ 2 ≤ 40 ∧ alignmentStands 40 170 170 ∧ alignmentStands 40 6 30 ∧
    4 ≤ 4 :=
  ⟨by decide, by decide, ⟨by decide, by decide, by decide, by decide, by decide⟩,
    ⟨by decide, by decide, by decide, by decide, by decide⟩, by decide⟩

theorem witness_MfmtWritesBothCopies : (plain 40 .unset).matrixShape ∧ (plain 40 .unset).mvalid = true :=
  ⟨plain_matrixShape (by decide) (by decide) _, rfl⟩

theorem witness_MveriWritesBothBlocks :
    ((plain 6 .unset).matrixShape ∧ (plain 6 .unset).mvalid = true ∧ (plain 6 .unset).ver < 7) ∧
    (plain 7 .unset).matrixShape ∧ (plain 7 .unset).mvalid = true ∧ 7 ≤ (plain 7 .unset).ver ∧
    31892 = (if false = true ∧ (plain 7 .unset).cfg.testVersionInfo = .zero then 0 else bch18 (plain 7 .unset).ver) :=
  ⟨⟨plain_matrixShape (by decide) (by decide) _, rfl, by decide⟩, plain_matrixShape (by decide) (by decide) _, rfl, by decide,
    by decide +kernel⟩

theorem witness_MdarkWritesTheDarkModule :
    (plain 1 .unset).matrixShape ∧ (plain 1 .unset).mvalid = true ∧
    true = !(true && (plain 1 .unset).cfg.testDarkModule == .light) :=
  ⟨plain_matrixShape (by decide) (by decide) _, rfl, rfl⟩

/-- The order of a blank version-1 matrix, as R259's walk gives it. -/
def blankOrder : List (Nat × Nat) :=
  ((List.range (21 * (21 - 1))).map (walkCell 21)).filter (fun p => cellAt (plain 1 .unset).mat p.1 p.2 == .unset)

theorem witness_MdataFillsTheUnsetCells :
    (plain 1 .unset).matrixShape ∧ (plain 1 .unset).mvalid = true ∧
    blankOrder = ((List.range ((plain 1 .unset).size * ((plain 1 .unset).size - 1))).map
      (walkCell (plain 1 .unset).size)).filter (fun p => cellAt (plain 1 .unset).mat p.1 p.2 == .unset) ∧
    (∃ h : 419 < blankOrder.length, blankOrder[419] = (20, 0)) ∧ (20, 6) ∉ blankOrder :=
  ⟨plain_matrixShape (by decide) (by decide) _, rfl, rfl, by decide +kernel, by decide +kernel⟩

/-- MB-3: the first five cells of the zigzag of a version-1 build, and R259's last pair, walked on a blank matrix. -/
theorem test_walk_order :
    ((List.range 5).map (walkCell 21), (List.range 42).map (fun n => walkCell 21 (378 + n))) =
      ([(20, 20), (20, 19), (19, 20), (19, 19), (18, 20)],
        (List.range 21).flatMap (fun row => [(row, 1), (row, 0)])) := by decide +kernel

theorem witness_MdataFillsTheUnsetCells_completes :
    (plain 1 .dark).matrixShape ∧ (plain 1 .dark).mvalid = true ∧ (plain 1 .dark).columnSixSet := by
  refine ⟨plain_matrixShape (by decide) (by decide) _, rfl, ?_⟩
  unfold State.columnSixSet
  decide +kernel

theorem witness_ZigzagWalksEveryCellOnceInOrder : 21 = 4 * 1 + 17 ∧ 177 = 4 * 40 + 17 := by decide

theorem witness_MbuildEqualsTheStepSequence : 1 ≤ 40 ∧ 40 ≤ 40 := by decide

theorem witness_CodeWordsAreSystematicBch : 31 < 32 ∧ (40 < 41 ∧ 7 ≤ 40) ∧ (7 < 41 ∧ 7 ≤ 7) := by decide

theorem witness_MpenScoresTheMatrix :
    (plain 1 .light).matrixShape ∧ (plain 1 .light).complete = true ∧
    (∃ q1 q2 q3 d : Nat,
      q1 = (∑ l ∈ Finset.range (2 * (plain 1 .light).size), ∑ a ∈ Finset.range (plain 1 .light).size,
        ∑ len ∈ Finset.range ((plain 1 .light).size + 1),
          (if 5 ≤ len ∧ maximalRun (plain 1 .light).size (plain 1 .light).mat l a len then len - 2 else 0)) ∧
      q2 = 3 * ((Finset.range ((plain 1 .light).size - 1) ×ˢ Finset.range ((plain 1 .light).size - 1)).filter fun p =>
        cellAt (plain 1 .light).mat p.1 p.2 = cellAt (plain 1 .light).mat p.1 (p.2 + 1) ∧
        cellAt (plain 1 .light).mat p.1 p.2 = cellAt (plain 1 .light).mat (p.1 + 1) p.2 ∧
        cellAt (plain 1 .light).mat p.1 p.2 = cellAt (plain 1 .light).mat (p.1 + 1) (p.2 + 1)).card ∧
      q3 = 40 * ((Finset.range (2 * (plain 1 .light).size) ×ˢ Finset.range ((plain 1 .light).size - 10)).filter fun p =>
        windowAt (plain 1 .light).size (plain 1 .light).mat p.1 p.2 [1, 0, 1, 1, 1, 0, 1, 0, 0, 0, 0] ∨
        windowAt (plain 1 .light).size (plain 1 .light).mat p.1 p.2 [0, 0, 0, 0, 1, 0, 1, 1, 1, 0, 1]).card ∧
      d = ((Finset.range (plain 1 .light).size ×ˢ Finset.range (plain 1 .light).size).filter fun p =>
        cellAt (plain 1 .light).mat p.1 p.2 = .dark).card ∧
      ∃ q4 : Nat, q4 = 10 * (((20 : Int) * d - 10 * (plain 1 .light).size ^ 2).natAbs / (plain 1 .light).size ^ 2)) :=
  ⟨plain_matrixShape (by decide) (by decide) _, by decide +kernel, _, _, _, _, rfl, rfl, rfl, rfl, _, rfl⟩

/-- R295's example: the 15 cells hold pattern B at offset 0 and pattern A at offset 4, and R293's run of 7. -/
theorem test_penalty_definitions :
    (windowAt 21 [rowOf "000010111010000000000"] 0 0 [0, 0, 0, 0, 1, 0, 1, 1, 1, 0, 1],
      windowAt 21 [rowOf "000010111010000000000"] 0 4 [1, 0, 1, 1, 1, 0, 1, 0, 0, 0, 0],
      (List.range 22).map (fun len => maximalRun 21 [rowOf "100000001010101010101"] 0 1 len)) =
      (true, true, (List.range 22).map (fun len => len == 7)) := by decide +kernel

theorem witness_MselPicksTheLowestPenalty : (1 ≤ 1 ∧ 1 ≤ 40) ∧ 1 ≤ 40 ∧ 40 ≤ 40 := by decide

theorem witness_MautoIsSelectionThenBuild : (1 ≤ 1 ∧ 1 ≤ 40) ∧ 1 ≤ 40 ∧ 40 ≤ 40 := by decide

theorem witness_QueriesReturnCells :
    (plain 1 .dark).mvalid = true ∧ (plain 1 .dark).complete = true ∧ 20 < (plain 1 .dark).size ∧
    255 = ((State.started { plain 1 .dark with border := 255 }).getD (State.border { plain 1 .dark with border := 255 })).toNat ∧
    0 = ((State.started { plain 1 .dark with started := some 0, border := 255 }).getD 255).toNat ∧
    530 < State.size { plain 1 .dark with border := 255 } + 2 * 255 := by decide +kernel

theorem witness_MatrixChecksFault_version :
    (awaiting 7 State.reset).pending = some 7 ∧ ((0 = 0 ∨ 40 < 0) ∧ (41 = 0 ∨ 40 < 41)) := by decide

theorem witness_MatrixChecksFault_no_matrix :
    (awaiting 7 State.reset).pending = some 7 ∧ (awaiting 7 State.reset).mvalid = false ∧ Instr.fillsCells (.mdata 0) = true ∧
    Instr.isQuery (.mctx 21 21) = true ∧ Instr.mpen = .mpen := by decide

theorem witness_MatrixChecksFault_incomplete :
    (awaiting 7 (plain 1 .unset)).pending = some 7 ∧ (awaiting 7 (plain 1 .unset)).mvalid = true ∧
    (awaiting 7 (plain 1 .unset)).complete = false := by decide +kernel

theorem witness_MatrixChecksFault_range :
    (awaiting 7 (plain 1 .dark)).pending = some 7 ∧ (awaiting 7 (plain 1 .dark)).mvalid = true ∧
    (awaiting 7 (plain 1 .dark)).complete = true ∧
    ((awaiting 7 (plain 1 .dark)).size ≤ 21 ∨ (awaiting 7 (plain 1 .dark)).size ≤ 0) ∧
    0 = ((awaiting 7 (plain 1 .dark)).started.getD (awaiting 7 (plain 1 .dark)).border).toNat ∧
    ((awaiting 7 (plain 1 .dark)).size + 2 * 0 ≤ 0 ∨ (awaiting 7 (plain 1 .dark)).size + 2 * 0 ≤ 21) := by decide +kernel

end Sys2Proof.Tests
end

section
/-! PROOFS. The invariant of RSQR's state: what a command's effect can be, said once; every command is one completion with
such an effect or with a fault; every operation on the state, and so every step, keeps the invariant. -/

namespace Sys2Proof.Machine

/-! ### The effect of a command -/

/-- What a command that does not fault can do to the state before it completes (R142): a chain of writes to RESULT, the
buffers, the matrix and the penalties, each within its bounds (R48, R51 to R53). -/
inductive Effect (s : State) : State → Prop
  | nothing : Effect s s
  | result {u : State} (v : Nat) : Effect s u → Effect s (u.setResult v)
  | poly {u : State} (k : Fin 4) {l : List Byte} : l.length ≤ PMAX → Effect s u → Effect s (u.setPoly k l)
  | codewords {u : State} {l : List Byte} : l.length ≤ CWMAX → Effect s u → Effect s (u.setCw l)
  | matrix {u : State} {v : Nat} {g : Grid} :
      1 ≤ v ∧ v ≤ 40 → squareGrid (sideOf v) g → Effect s u → Effect s (u.startMatrix v g)
  | cells {u : State} {g : Grid} :
      (∀ n, squareGrid n u.mat → squareGrid n g) → Effect s u → Effect s (u.setMat g)
  | penalties {u : State} (q : Score) : Effect s u → Effect s (u.setScore q)

/-- Whatever a check answers without a fault is an effect on `s`. -/
def Yields (s : State) (r : Check State) : Prop :=
  ∀ u, r = .ok u → Effect s u

/-- The outcome of a command from `s`: the completion with a fault, or with an effect. -/
def Completes (s : State) (o : Host.Outcome State Fault Refusal) : Prop :=
  (∃ c, o = .next (s.faulted c)) ∨ ∃ u, Effect s u ∧ o = .next u.completed

theorem Yields.pure {s u : State} (h : Effect s u) : Yields s (.ok u) := by
  rintro _ ⟨⟩
  exact h

theorem Yields.bind {s : State} {α : Type} {x : Check α} {f : α → Check State}
    (h : ∀ a, x = .ok a → Yields s (f a)) : Yields s (x >>= f) := by
  intro u hu
  obtain ⟨a, ha, hf⟩ := check_bind_eq_ok.mp hu
  exact h a ha u hf

theorem Yields.completes {s : State} {r : Check State} (h : Yields s r) : Completes s (finish s r) := by
  cases r with
  | ok u => exact .inr ⟨u, h u rfl, rfl⟩
  | error c => exact .inl ⟨c, rfl⟩

/-! ### The bounds of what commands compute -/

theorem require_decide_eq_ok {p : Prop} [Decidable p] {c : FaultCode} {u : Unit} (h : require (decide p) c = .ok u) : p :=
  of_decide_eq_true (require_eq_ok.mp h)

theorem requireVersion_eq_ok {v : Nat} {u : Unit} (h : requireVersion v = .ok u) : 1 ≤ v ∧ v ≤ 40 := by
  simpa using require_eq_ok.mp h

theorem construct_length_le {l r : List Byte} {k : Nat} (h : construct l k = .ok r) : r.length ≤ PMAX := by
  obtain ⟨-, rfl, hlen⟩ := construct_eq_ok.mp h
  simpa using hlen

theorem pmul_length_le {a b r : List Byte} (h : pmul a b = .ok r) : r.length ≤ PMAX := by
  obtain ⟨_, -, h⟩ := check_bind_eq_ok.mp h
  obtain ⟨num, -, h⟩ := check_bind_eq_ok.mp h
  exact construct_length_le h

theorem reduceStep_length_le {p q r : List Byte} (h : reduceStep p q = .ok r) : r.length ≤ PMAX := by
  obtain ⟨_, -, h⟩ := check_bind_eq_ok.mp h
  obtain ⟨_, -, h⟩ := check_bind_eq_ok.mp h
  obtain ⟨num, -, h⟩ := check_bind_eq_ok.mp h
  exact construct_length_le h

theorem reduce_length_le {q r : List Byte} (fuel : Nat) :
    ∀ {p : List Byte}, p.length ≤ PMAX → reduce fuel p q = .ok r → r.length ≤ PMAX := by
  induction fuel with
  | zero =>
    intro p hp h
    simp only [reduce, ite_self, Except.ok.injEq] at h
    exact h ▸ hp
  | succ n ih =>
    intro p hp h
    unfold reduce at h
    split at h
    · cases h
      exact hp
    · obtain ⟨p', hp', h⟩ := check_bind_eq_ok.mp h
      exact ih (reduceStep_length_le hp') h

theorem pmod_length_le {p q r : List Byte} (hp : p.length ≤ PMAX) (h : pmod p q = .ok r) : r.length ≤ PMAX :=
  reduce_length_le _ hp h

theorem genProduct_length_le {n : Nat} {r : List Byte} (h : genProduct n = .ok r) : r.length ≤ PMAX := by
  cases n with
  | zero => cases h; decide
  | succ i =>
    obtain ⟨g, -, h⟩ := check_bind_eq_ok.mp h
    exact pmul_length_le h

theorem gen_length_le {n : Nat} {r : List Byte} (h : gen n = .ok r) : n + 1 ≤ PMAX ∧ r.length ≤ PMAX := by
  obtain ⟨_, hn, h⟩ := check_bind_eq_ok.mp h
  exact ⟨require_decide_eq_ok hn, genProduct_length_le h⟩

theorem rsec_length_le {l r : List Byte} {n : Nat} (h : rsec l n = .ok r) : r.length ≤ PMAX := by
  obtain ⟨_, -, h⟩ := check_bind_eq_ok.mp h
  obtain ⟨g, hg, h⟩ := check_bind_eq_ok.mp h
  obtain ⟨raw, -, h⟩ := check_bind_eq_ok.mp h
  obtain ⟨m, -, h⟩ := check_bind_eq_ok.mp h
  cases h
  have := (gen_length_le hg).1
  rw [rightAlign_length]
  omega

/-! ### Every command completes with such an effect or a fault -/

/-- A computation that only answers a number for RESULT. -/
theorem Yields.result {s : State} (v : Nat) : Yields s (.ok (s.setResult v)) :=
  .pure (.result _ .nothing)

/-- Write a list that fits to a polynomial buffer, and RESULT. -/
theorem Yields.poly {s : State} {k : Fin 4} {l : List Byte} {v : Nat} (h : l.length ≤ PMAX) :
    Yields s (.ok ((s.setPoly k l).setResult v)) :=
  .pure (.result _ (.poly _ h .nothing))

/-- Write a list that fits to the codeword buffer, and RESULT. -/
theorem Yields.codewords {s : State} {l : List Byte} {v : Nat} (h : l.length ≤ CWMAX) :
    Yields s (.ok ((s.setCw l).setResult v)) :=
  .pure (.result _ (.codewords h .nothing))

/-- Replace the cells of the matrix, keeping its shape, and write RESULT. -/
theorem Yields.cells {s : State} {g : Grid} {v : Nat} (h : ∀ n, squareGrid n s.mat → squareGrid n g) :
    Yields s (.ok ((s.setMat g).setResult v)) :=
  .pure (.result _ (.cells h .nothing))

/-- Every command completes, with an effect within the bounds or with a fault. -/
theorem exec_completes (i : Instr) (s : State) : Completes s (exec i s) := by
  cases i with
  | nop => exact Yields.completes (.pure .nothing)
  | gexp n => exact Yields.completes (.result _)
  | glog a => exact Yields.completes (.bind fun _ _ => .result _)
  | gmul a b => exact Yields.completes (.bind fun _ _ => .result _)
  | pclr d => exact Yields.completes (.bind fun _ _ => .pure (.poly _ (Nat.zero_le _) .nothing))
  | ppush d b =>
    refine Yields.completes (.bind fun _ _ => .bind fun _ room => .poly ?_)
    simpa using require_decide_eq_ok room
  | prd d idx => exact Yields.completes (.bind fun _ _ => .bind fun _ _ => .result _)
  | plen d => exact Yields.completes (.bind fun _ _ => .result _)
  | pnorm d a shift =>
    exact Yields.completes (.bind fun _ _ => .bind fun _ _ => .bind fun _ hr => .poly (construct_length_le hr))
  | pmul d a b =>
    exact Yields.completes (.bind fun _ _ => .bind fun _ _ => .bind fun _ _ => .bind fun _ _ => .bind fun _ _ =>
      .bind fun _ hr => .poly (pmul_length_le hr))
  | pmod d a b =>
    exact Yields.completes (.bind fun _ _ => .bind fun _ _ => .bind fun _ _ => .bind fun _ hp => .bind fun _ _ =>
      .bind fun _ hr => .poly (pmod_length_le (construct_length_le hp) hr))
  | pgen d n => exact Yields.completes (.bind fun _ _ => .bind fun _ hr => .poly (gen_length_le hr).2)
  | rsec d a n =>
    exact Yields.completes (.bind fun _ _ => .bind fun _ _ => .bind fun _ hr => .poly (rsec_length_le hr))
  | cclr => exact Yields.completes (.pure (.codewords (Nat.zero_le _) .nothing))
  | cpush b =>
    refine Yields.completes (.bind fun _ room => .codewords ?_)
    simpa using require_decide_eq_ok room
  | crd idx => exact Yields.completes (.bind fun _ _ => .result _)
  | cpushp a => exact Yields.completes (.bind fun _ _ => .bind fun _ room => .codewords (require_decide_eq_ok room))
  | clen => exact Yields.completes (.result _)
  | mskel v =>
    exact Yields.completes (.bind fun _ hv =>
      .pure (.result _ (.matrix (requireVersion_eq_ok hv) (squareGrid_skeleton v) .nothing)))
  | mfmt t mask lvl => exact Yields.completes (.bind fun _ _ => .cells fun _ => squareGrid_placeFormat _ _)
  | mveri t =>
    refine Yields.completes (.bind fun _ _ => ?_)
    split
    · exact .result _
    · exact .cells fun _ => squareGrid_placeVersion _ _
  | mdark t => exact Yields.completes (.bind fun _ _ => .cells fun _ => squareGrid_placeDark _ _)
  | mdata mask => exact Yields.completes (.bind fun _ _ => .cells fun _ => squareGrid_placeData _ _ _)
  | mbuild t mask lvl v =>
    exact Yields.completes (.bind fun _ hv =>
      .pure (.result _ (.matrix (requireVersion_eq_ok hv) (squareGrid_build _ _ v _ _ _) .nothing)))
  | mpen =>
    exact Yields.completes (.bind fun _ _ => .bind fun _ _ => .pure (.result _ (.penalties _ .nothing)))
  | msel lvl v =>
    exact Yields.completes (.bind fun _ hv => .pure (.result _
      (.penalties _ (.matrix (requireVersion_eq_ok hv) (squareGrid_build _ _ v _ _ _) .nothing))))
  | mauto lvl v =>
    exact Yields.completes (.bind fun _ hv => .pure (.result _
      (.penalties _ (.matrix (requireVersion_eq_ok hv) (squareGrid_build _ _ v _ _ _) .nothing))))
  | mrd row col => exact Yields.completes (.bind fun _ _ => .bind fun _ _ => .result _)
  | mctx row col => exact Yields.completes (.bind fun _ _ => .bind fun _ _ => .bind fun _ _ => .result _)
  | mbrd row col => exact Yields.completes (.bind fun _ _ => .bind fun _ _ => .bind fun _ _ => .result _)
  | mbsize => exact Yields.completes (.bind fun _ _ => .bind fun _ _ => .result _)

/-! ### Resets -/

/-- A state after a reset, whatever the surroundings, meets the invariant. -/
theorem resetWith_inv {cfg : Config} (hbase : cfg.base % 64 = 0) (line : Bool) (d : Word) (rest : List Input) :
    State.Inv { State.resetWith cfg with resetLine := line, busData := d, inputs := rest } where
  polysBounded := ⟨Nat.zero_le _, Nat.zero_le _, Nat.zero_le _, Nat.zero_le _⟩
  cwBounded := Nat.zero_le _
  errcodeConsistent := ⟨fun _ => rfl, fun h => nomatch h⟩
  doneOnlyWhenIdle := fun _ => rfl
  startedOnlyWhenPending := fun h => nomatch h
  penaltyTotal := rfl
  matrixShape := ⟨fun _ => ⟨rfl, rfl⟩, fun h => nomatch h⟩
  resetHolds := fun _ => rfl
  baseAligned := hbase

/-- Settles O18: the reset state is one of the states after a reset, and has no matrix. -/
theorem resetMeetsTheInvariant : Obligations.ResetMeetsTheInvariant := by
  unfold Obligations.ResetMeetsTheInvariant
  exact ⟨resetWith_inv rfl false 0 [], fun h => nomatch h⟩

theorem State.Inv.driveReset {s : State} (h : s.Inv) (b : Bool) : (s.driveReset b).Inv := by
  obtain hreset | ⟨hkeep, -, -⟩ := s.driveReset_cases b
  · rw [hreset]
    exact resetWith_inv h.baseAligned b _ _
  · rwa [hkeep]

/-! ### The surroundings and the host's accesses -/

/-- The invariant does not speak of the events to come. -/
theorem State.Inv.withInputs {s : State} (h : s.Inv) (rest : List Input) : State.Inv { s with inputs := rest } :=
  { h with resetHolds := fun hr => congrArg (fun u : State => { u with inputs := rest }) (h.resetHolds hr) }

/-- The invariant does not speak of the last read's data. -/
theorem State.Inv.withBusData {s : State} (h : s.Inv) (d : Word) : State.Inv { s with busData := d } :=
  { h with resetHolds := fun hr => congrArg (fun u : State => { u with busData := d }) (h.resetHolds hr) }

/-- The clause on the reset input asks nothing while the input is released. -/
theorem State.resetHolds_of_released {s : State} (h : s.resetLine = false) : s.resetHolds :=
  fun hr => absurd (h.symm.trans hr) Bool.false_ne_true

theorem State.Inv.issue {s : State} (h : s.Inv) (hr : s.resetLine = false) (w : Word) : (s.issue w).Inv := by
  cases hp : s.pending with
  | none =>
    rw [s.issue_idle w hp]
    exact { h with
      doneOnlyWhenIdle := fun _ => rfl
      startedOnlyWhenPending := fun hs => nomatch hs
      resetHolds := State.resetHolds_of_released hr }
  | some v =>
    rw [s.issue_busy v w hp]
    exact { h with resetHolds := State.resetHolds_of_released hr }

theorem State.Inv.writeStatus {s : State} (h : s.Inv) (hr : s.resetLine = false) (w : Word) : (s.writeStatus w).Inv :=
  { h with
    errcodeConsistent := by
      cases hw : w.getLsbD 2 with
      | true => simp [State.errcodeConsistent, hw]
      | false =>
        simpa only [State.errcodeConsistent, State.writeStatus_err, State.writeStatus_errcode, hw, Bool.not_false,
          Bool.and_true, Bool.false_eq_true, if_false] using h.errcodeConsistent
    doneOnlyWhenIdle := fun hp => by simp [h.doneOnlyWhenIdle hp]
    resetHolds := State.resetHolds_of_released hr }

theorem State.Inv.writeCtrl {s : State} (h : s.Inv) (hr : s.resetLine = false) (w : Word) : (s.writeCtrl w).Inv := by
  cases hw : w.getLsbD 1 with
  | true =>
    rw [s.writeCtrl_softReset w hw]
    exact resetWith_inv h.baseAligned _ _ _
  | false =>
    rw [s.writeCtrl_plain w hw]
    exact { h with resetHolds := State.resetHolds_of_released hr }

theorem State.Inv.hostAccess {s : State} (h : s.Inv) (a : Access) : (s.hostAccess a).Inv := by
  obtain ⟨d, hread⟩ | hnothing | ⟨hr, w, hissue | hstatus | hctrl⟩ := s.hostAccess_cases a
  · rw [hread]; exact h.withBusData d
  · rwa [hnothing]
  · rw [hissue]; exact h.issue hr w
  · rw [hstatus]; exact h.writeStatus hr w
  · rw [hctrl]; exact h.writeCtrl hr w

/-! ### The engine -/

theorem State.Inv.start {s : State} (h : s.Inv) : s.start.Inv := by
  obtain ⟨hr, hp, hstart⟩ | ⟨-, hidle⟩ := s.start_cases
  · rw [hstart]
    exact { h with startedOnlyWhenPending := fun _ => hp, resetHolds := State.resetHolds_of_released hr }
  · rwa [hidle]

theorem FaultCode.code_range (c : FaultCode) : 1 ≤ c.code.toNat ∧ c.code.toNat ≤ 9 := by
  cases c <;> decide

theorem State.Inv.completed {s : State} (h : s.Inv) (hr : s.resetLine = false) : s.completed.Inv :=
  { h with
    doneOnlyWhenIdle := fun hp => nomatch hp
    startedOnlyWhenPending := fun hs => nomatch hs
    resetHolds := State.resetHolds_of_released hr }

theorem State.Inv.faulted {s : State} (h : s.Inv) (hr : s.resetLine = false) (c : FaultCode) : (s.faulted c).Inv :=
  { h.completed hr with
    errcodeConsistent := ⟨(fun he => nomatch he), fun _ => c.code_range⟩
    resetHolds := State.resetHolds_of_released hr }

/-- The bound of the four buffers (R51), said of the buffer file by number. -/
theorem State.polysBounded_iff {s : State} : s.polysBounded ↔ ∀ k, (s.polys.get k).length ≤ PMAX := by
  simp [State.polysBounded, Fin.forall_fin_succ, PolyBuffers.get]

theorem State.polysBounded_setPoly {s : State} {k : Fin 4} {l : List Byte} (h : s.polysBounded) (hl : l.length ≤ PMAX) :
    (s.setPoly k l).polysBounded := by
  rw [State.polysBounded_iff] at h ⊢
  intro j
  by_cases hj : j = k
  · subst hj
    simpa using hl
  · simpa [PolyBuffers.get_set_of_ne _ l hj] using h j

/-- PENT is written as the total of what PEN1 to PEN4 get (R48), also past 32 bits. -/
theorem State.penaltyTotal_setScore (s : State) (q : Score) : (s.setScore q).penaltyTotal := by
  simp [State.penaltyTotal, Score.total, zext32, BitVec.ofNat_add]

/-- The effect of a command leaves the reset input alone. -/
theorem Effect.resetLine {s u : State} (h : Effect s u) : u.resetLine = s.resetLine := by
  induction h with
  | nothing => rfl
  | result _ _ ih | poly _ _ _ ih | codewords _ _ ih | matrix _ _ _ ih | cells _ _ ih | penalties _ _ ih => exact ih

/-- The effect of a command keeps the invariant. -/
theorem Effect.inv {s u : State} (e : Effect s u) (h : s.Inv) (hr : s.resetLine = false) : u.Inv := by
  induction e with
  | nothing => exact h
  | result v e ih => exact { ih with resetHolds := State.resetHolds_of_released (e.resetLine.trans hr) }
  | poly k hl e ih =>
    exact { ih with
      polysBounded := State.polysBounded_setPoly ih.polysBounded hl
      resetHolds := State.resetHolds_of_released (e.resetLine.trans hr) }
  | codewords hl e ih =>
    exact { ih with cwBounded := hl, resetHolds := State.resetHolds_of_released (e.resetLine.trans hr) }
  | matrix hv hg e ih =>
    exact { ih with
      matrixShape := ⟨(fun hm => nomatch hm), fun _ => ⟨hv.1, hv.2, rfl, hg⟩⟩
      resetHolds := State.resetHolds_of_released (e.resetLine.trans hr) }
  | cells hg e ih =>
    obtain ⟨hnone, hsome⟩ := ih.matrixShape
    refine { ih with
      matrixShape := ⟨hnone, fun hm => ?_⟩
      resetHolds := State.resetHolds_of_released (e.resetLine.trans hr) }
    obtain ⟨hlo, hhi, hsize, hsquare⟩ := hsome hm
    exact ⟨hlo, hhi, hsize, hg _ hsquare⟩
  | penalties q e ih =>
    exact { ih with
      penaltyTotal := State.penaltyTotal_setScore _ q
      resetHolds := State.resetHolds_of_released (e.resetLine.trans hr) }

theorem State.Inv.exec {s t : State} {i : Instr} (h : s.Inv) (hr : s.resetLine = false) (ht : exec i s = .next t) :
    t.Inv := by
  obtain ⟨c, hfault⟩ | ⟨u, e, hdone⟩ := exec_completes i s
  · cases ht.symm.trans hfault
    exact h.faulted hr c
  · cases ht.symm.trans hdone
    exact (e.inv h hr).completed (e.resetLine.trans hr)

theorem State.Inv.engineTurn {s t : State} (h : s.Inv) (ht : engineTurn s = .next t) : t.Inv := by
  obtain rfl | ⟨w, ⟨hr, -⟩, hw⟩ := engineTurn_cases ht
  · exact h
  · obtain ⟨-, rfl⟩ | ⟨i, -, hi⟩ := executeWord_cases hw
    · exact h.faulted hr .illegal
    · exact h.exec hr hi

/-- Settles O19: each event of `step_cases` keeps the invariant. -/
theorem stepKeepsTheInvariant : Obligations.StepKeepsTheInvariant := by
  unfold Obligations.StepKeepsTheInvariant
  intro s t h hstep
  obtain ⟨-, hturn⟩ | ⟨e, rest, -, ⟨a, -, rfl⟩ | ⟨b, -, rfl⟩ | ⟨-, rfl⟩ | ⟨-, hturn⟩⟩ := step_cases hstep
  · exact h.engineTurn hturn
  · exact (h.withInputs rest).hostAccess a
  · exact (h.withInputs rest).driveReset b
  · exact (h.withInputs rest).start
  · exact (h.withInputs rest).engineTurn hturn

end Sys2Proof.Machine
end

section
/-! PROOFS. The registers as the host finds them: a legal access reaches the register at its offset, the fields of each
register word, and the state after a reset. -/

namespace Sys2Proof.Machine

/-! ### A legal access reaches its register -/

/-- A 32-bit access at an aligned offset of the window is legal while the reset input is released (R82). -/
theorem State.legalOffset_of_aligned {s : State} {off : Nat} (hr : s.resetLine = false) (hlt : off < 64)
    (hal : off % 4 = 0) : s.legalOffset (s.cfg.base + off) 32 = some off := by
  simp [State.legalOffset, hr, hlt, hal]

theorem step_access {s : State} {a : Access} {rest : List Input} (h : s.inputs = .access a :: rest) :
    step s = .next (State.hostAccess { s with inputs := rest } a) := by
  simp only [step, advance, h, perform]

theorem step_legalRead {s : State} {off : Nat} {rest : List Input} (hr : s.resetLine = false) (hlt : off < 64)
    (hal : off % 4 = 0) (h : s.inputs = .access (.read (s.cfg.base + off) 32) :: rest) :
    step s = .next { s with busData := s.readRegister off, inputs := rest } := by
  have hoff : State.legalOffset { s with inputs := rest } (s.cfg.base + off) 32 = some off :=
    State.legalOffset_of_aligned hr hlt hal
  rw [step_access h]
  simp only [State.hostAccess, State.busRead, hoff]
  rfl

theorem step_legalWrite {s : State} {off : Nat} {w : Word} {rest : List Input} (hr : s.resetLine = false) (hlt : off < 64)
    (hal : off % 4 = 0) (h : s.inputs = .access (.write (s.cfg.base + off) 32 w) :: rest) :
    step s = .next (State.writeRegister { s with inputs := rest } off w) := by
  have hoff : State.legalOffset { s with inputs := rest } (s.cfg.base + off) 32 = some off :=
    State.legalOffset_of_aligned hr hlt hal
  rw [step_access h]
  simp only [State.hostAccess, State.busWrite, hoff]

/-! The three writes that have an effect (R87): CMD, STATUS and CTRL. -/

section
variable {s : State} {w : Word} {rest : List Input}

theorem step_cmdWrite (hr : s.resetLine = false) (h : s.inputs = .access (.write s.cfg.base 32 w) :: rest) :
    step s = .next (State.issue { s with inputs := rest } w) :=
  step_legalWrite (off := 0x00) hr (by decide) (by decide) h

theorem step_statusWrite (hr : s.resetLine = false)
    (h : s.inputs = .access (.write (s.cfg.base + 0x04) 32 w) :: rest) :
    step s = .next (State.writeStatus { s with inputs := rest } w) :=
  step_legalWrite hr (by decide) (by decide) h

theorem step_ctrlWrite (hr : s.resetLine = false) (h : s.inputs = .access (.write (s.cfg.base + 0x0C) 32 w) :: rest) :
    step s = .next (State.writeCtrl { s with inputs := rest } w) :=
  step_legalWrite hr (by decide) (by decide) h

end

theorem State.writeRegister_ignored (s : State) {off : Nat} (w : Word) (hcmd : off ≠ 0x00) (hstatus : off ≠ 0x04)
    (hctrl : off ≠ 0x0C) : s.writeRegister off w = s := by
  unfold State.writeRegister
  split
  · exact absurd rfl hcmd
  · exact absurd rfl hstatus
  · exact absurd rfl hctrl
  · rfl

/-- Settles O15: a legal access reaches the register of its offset, and the sixteen offsets are the sixteen arms of
`State.readRegister`. -/
theorem legalReadsReturnRegisters : Obligations.LegalReadsReturnRegisters := by
  unfold Obligations.LegalReadsReturnRegisters
  refine ⟨fun s off rest hr hlt hal => ⟨step_legalRead hr hlt hal, fun w hcmd hstatus hctrl h => ?_⟩, fun s => ?_⟩
  · rw [step_legalWrite hr hlt hal h, State.writeRegister_ignored _ w hcmd hstatus hctrl]
  · exact ⟨rfl, rfl, rfl, rfl, rfl, rfl, rfl, rfl, rfl, rfl, rfl, rfl, rfl, rfl, rfl, rfl⟩

/-! ### The fields of a register word -/

theorem bit_lt_two (b : Bool) : bit b < 2 := by
  cases b <;> decide

/-- Bit `i` of a register is the flag that stands there. -/
theorem getLsbD_zext32 {v i : Nat} {b : Bool} (hi : i < 32) (h : v / 2 ^ i % 2 = bit b) : (zext32 v).getLsbD i = b := by
  rw [zext32, BitVec.getLsbD_ofNat, decide_eq_true hi, Bool.true_and, Nat.testBit_eq_decide_div_mod_eq, h]
  cases b <;> rfl

/-- The field of `len` bits at bit `lo` of a register, as a number. -/
theorem toNat_extractLsb'_zext32 {v lo len : Nat} (hlen : lo + len ≤ 32) :
    ((zext32 v).extractLsb' lo len).toNat = v / 2 ^ lo % 2 ^ len := by
  have hsplit : 2 ^ 32 = 2 ^ lo * 2 ^ (32 - lo) := by rw [← Nat.pow_add]; congr 1; omega
  rw [zext32, BitVec.extractLsb'_toNat, BitVec.toNat_ofNat, Nat.shiftRight_eq_div_pow, hsplit,
    Nat.mod_mul_right_div_self, Nat.mod_mod_of_dvd _ (Nat.pow_dvd_pow 2 (by omega))]

/-- A field of a register is the value that stands there. -/
theorem extractLsb'_zext32 {v lo len : Nat} {f : BitVec len} (hlen : lo + len ≤ 32) (h : v / 2 ^ lo % 2 ^ len = f.toNat) :
    (zext32 v).extractLsb' lo len = f :=
  BitVec.eq_of_toNat_eq ((toNat_extractLsb'_zext32 hlen).trans h)

/-- A field of a register that holds a constant, such as the 0 of reserved bits. -/
theorem extractLsb'_zext32_const {v lo len c : Nat} (hlen : lo + len ≤ 32) (h : v / 2 ^ lo % 2 ^ len = c % 2 ^ len) :
    (zext32 v).extractLsb' lo len = BitVec.ofNat len c :=
  extractLsb'_zext32 hlen (h.trans (BitVec.toNat_ofNat c len).symm)

/-- The layout of STATUS (R35). -/
theorem State.statusWord_fields (s : State) :
    s.statusWord.getLsbD 0 = s.pending.isSome ∧ s.statusWord.getLsbD 1 = s.done ∧ s.statusWord.getLsbD 2 = s.err ∧
    s.statusWord.getLsbD 3 = s.ovr ∧ s.statusWord.extractLsb' 4 4 = 0#4 ∧ s.statusWord.extractLsb' 8 4 = s.errcode ∧
    s.statusWord.extractLsb' 12 20 = 0#20 := by
  have hbusy := bit_lt_two s.busy
  have hdone := bit_lt_two s.done
  have herr := bit_lt_two s.err
  have hovr := bit_lt_two s.ovr
  have hcode := s.errcode.isLt
  refine ⟨getLsbD_zext32 (b := s.busy) (by decide) ?_, getLsbD_zext32 (by decide) ?_, getLsbD_zext32 (by decide) ?_,
    getLsbD_zext32 (by decide) ?_, extractLsb'_zext32_const (by decide) ?_, extractLsb'_zext32 (by decide) ?_,
    extractLsb'_zext32_const (by decide) ?_⟩ <;> omega

/-- The layout of CTRL (R42). -/
theorem State.ctrl_fields (s : State) :
    s.ctrl.getLsbD 0 = s.ie ∧ s.ctrl.extractLsb' 1 7 = 0#7 ∧ s.ctrl.extractLsb' 8 8 = s.border ∧
    s.ctrl.extractLsb' 16 16 = 0#16 := by
  have hie := bit_lt_two s.ie
  have hborder := s.border.isLt
  refine ⟨getLsbD_zext32 (by decide) ?_, extractLsb'_zext32_const (by decide) ?_, extractLsb'_zext32 (by decide) ?_,
    extractLsb'_zext32_const (by decide) ?_⟩ <;> omega

/-- The layout of PARAM (R45). -/
theorem paramWord_fields (cfg : Config) :
    (paramWord cfg).getLsbD 0 = (cfg.testDarkModule == .dark) ∧
    (paramWord cfg).getLsbD 1 = (cfg.testVersionInfo == .real) ∧
    (paramWord cfg).extractLsb' 2 2 = 0#2 ∧ (paramWord cfg).extractLsb' 4 4 = 4#4 ∧
    (paramWord cfg).extractLsb' 8 4 = 8#4 ∧ (paramWord cfg).extractLsb' 12 4 = 12#4 ∧
    (paramWord cfg).extractLsb' 16 16 = 0#16 := by
  have hdark := bit_lt_two (cfg.testDarkModule == .dark)
  have hreal := bit_lt_two (cfg.testVersionInfo == .real)
  have hpoly : NPOLY = 4 := rfl
  refine ⟨getLsbD_zext32 (by decide) ?_, getLsbD_zext32 (by decide) ?_, extractLsb'_zext32_const (by decide) ?_,
    extractLsb'_zext32_const (by decide) ?_, extractLsb'_zext32_const (by decide) ?_,
    extractLsb'_zext32_const (by decide) ?_, extractLsb'_zext32_const (by decide) ?_⟩ <;> omega

/-- The layout of CWLEN (R47). -/
theorem State.cwlen_fields (s : State) :
    (s.cwlen.extractLsb' 0 13).toNat = s.cw.length % 2 ^ 13 ∧ s.cwlen.extractLsb' 13 19 = 0#19 := by
  refine ⟨(toNat_extractLsb'_zext32 (by decide)).trans ?_, extractLsb'_zext32_const (by decide) ?_⟩ <;> omega

/-- MINFO reads 0 while there is no matrix (R46). -/
theorem State.minfo_invalid {s : State} (h : s.mvalid = false) : s.minfo = 0 := by
  simp [State.minfo, h]

/-- The layout of MINFO while there is a matrix (R46). -/
theorem State.minfo_valid_fields {s : State} (h : s.mvalid = true) :
    (s.minfo.extractLsb' 0 6).toNat = s.ver % 2 ^ 6 ∧ s.minfo.extractLsb' 6 2 = 0#2 ∧
    (s.minfo.extractLsb' 8 8).toNat = s.size % 2 ^ 8 ∧ s.minfo.getLsbD 16 = true ∧
    s.minfo.getLsbD 17 = s.complete ∧ s.minfo.extractLsb' 18 14 = 0#14 := by
  have hcomplete := bit_lt_two s.complete
  have hone : bit true = 1 := rfl
  simp only [State.minfo, h, if_true]
  refine ⟨(toNat_extractLsb'_zext32 (by decide)).trans ?_, extractLsb'_zext32_const (by decide) ?_,
    (toNat_extractLsb'_zext32 (by decide)).trans ?_, getLsbD_zext32 (by decide) ?_, getLsbD_zext32 (by decide) ?_,
    extractLsb'_zext32_const (by decide) ?_⟩ <;> omega

theorem Cell.isUnset_eq_false_iff {x : Cell} : x.isUnset = false ↔ x ≠ .unset := by
  cases x <;> simp [Cell.isUnset]

/-- Settles O16, by whether a matrix is valid: without one MINFO is 0, and with one its shape bounds VER and SIZE. -/
theorem minfoLayout : Obligations.MinfoLayout := by
  unfold Obligations.MinfoLayout
  refine ⟨rfl, fun s ⟨_, hsome⟩ => ?_⟩
  cases hm : s.mvalid with
  | false => simp [State.minfo_invalid hm]
  | true =>
    obtain ⟨hlo, hhi, hsize, hsquare⟩ := hsome hm
    obtain ⟨hver, hgap, hside, hvalid, hcomplete, hhigh⟩ := State.minfo_valid_fields hm
    refine ⟨?_, hgap, ?_, hvalid, ?_, hhigh⟩
    · rw [hver, if_pos rfl]; omega
    · rw [hside, hsize, if_pos rfl]; omega
    · rw [hcomplete, complete_iff hsquare, hm]
      simp only [Cell.isUnset_eq_false_iff]

/-- Settles O17, from the fields of PARAM and CWLEN. -/
theorem constantRegistersAndCwlen : Obligations.ConstantRegistersAndCwlen := by
  unfold Obligations.ConstantRegistersAndCwlen
  refine ⟨fun _ => rfl, fun cfg => ?_, rfl, fun base => ?_, rfl, fun s hcw => ?_⟩
  · obtain ⟨hdark, hreal, hfixed⟩ := paramWord_fields cfg
    exact ⟨by rw [hdark, beq_iff_eq], by rw [hreal, beq_iff_eq], hfixed⟩
  · simp [paramWord, zext32, bit, NPOLY]
  · obtain ⟨hlen, hhigh⟩ := s.cwlen_fields
    exact ⟨hlen.trans (Nat.mod_eq_of_lt (Nat.lt_of_le_of_lt hcw (by decide))), hhigh⟩

/-! ### Resets -/

/-- Settles O11, by the two branches of a CTRL write and the layout of CTRL. -/
theorem ctrlWriteAndSoftReset : Obligations.CtrlWriteAndSoftReset := by
  unfold Obligations.CtrlWriteAndSoftReset
  refine ⟨fun s w rest hr h => ⟨fun hw => ?_, fun hw => ?_⟩, fun s w w' hw hw' => ?_, rfl, State.ctrl_fields⟩
  · rw [step_ctrlWrite hr h, State.writeCtrl_plain _ w hw]
  · rw [step_ctrlWrite hr h, State.writeCtrl_softReset _ w hw, State.cleared, hr]
    rfl
  · rw [State.writeCtrl_softReset s w hw, State.writeCtrl_softReset _ w' hw', State.cleared_cleared]

/-- A state after a reset, whatever the surroundings, reads as R58 says. -/
theorem resetWith_isReset (cfg : Config) (line : Bool) (d : Word) (rest : List Input) :
    State.IsReset { State.resetWith cfg with resetLine := line, busData := d, inputs := rest } cfg where
  status := by simp [State.statusWord, State.busy, State.resetWith, zext32, bit]
  result := rfl
  ctrl := by simp [State.ctrl, State.resetWith, zext32, bit]
  errcmd := rfl
  minfo := rfl
  matrix := ⟨rfl, rfl, rfl⟩
  cwlen := ⟨rfl, rfl⟩
  penalties := ⟨rfl, rfl, rfl, rfl, rfl⟩
  constants := ⟨rfl, rfl, rfl⟩
  pending := ⟨rfl, rfl⟩
  polys := by simp [Fin.forall_fin_succ, PolyBuffers.get, State.resetWith]
  irq := rfl

/-- Settles O12: each of the resets gives a state of `resetWith_isReset`. -/
theorem resetLeavesTheResetState : Obligations.ResetLeavesTheResetState := by
  unfold Obligations.ResetLeavesTheResetState
  refine ⟨resetWith_isReset _ false 0 [], fun cfg => resetWith_isReset cfg false 0 [], fun s => ⟨?_, fun w hw => ?_⟩⟩
  · exact resetWith_isReset s.cfg true s.busData s.inputs
  · rw [s.writeCtrl_softReset w hw]
    exact resetWith_isReset s.cfg s.resetLine s.busData s.inputs

/-! ### STATUS and the interrupt output -/

/-- A STATUS write as R35 puts it: a set bit clears its flag, a clear bit keeps it. -/
theorem State.writeStatus_eq (s : State) (w : Word) : s.writeStatus w = { s with
    done := if w.getLsbD 1 then false else s.done
    err := if w.getLsbD 2 then false else s.err
    errcode := if w.getLsbD 2 then 0 else s.errcode
    ovr := if w.getLsbD 3 then false else s.ovr } := by
  have hclear : ∀ flag b : Bool, (flag && !b) = if b then false else flag := by decide
  simp only [State.writeStatus, hclear]

theorem State.irq_of_not_done {s : State} (h : s.done = false) : s.irq = false := by
  simp [State.irq, h]

theorem State.irq_of_not_ie {s : State} (h : s.ie = false) : s.irq = false := by
  simp [State.irq, h]

/-- A CTRL write that sets IE to 0, soft reset or not, leaves IE 0. -/
theorem State.writeCtrl_ie {s : State} {w : Word} (h : w.getLsbD 0 = false) : (s.writeCtrl w).ie = false := by
  cases hw : w.getLsbD 1 with
  | true => rw [s.writeCtrl_softReset w hw, State.cleared_ie]
  | false => rw [s.writeCtrl_plain w hw]; exact h

/-- Settles O10, from the layout of STATUS and CTRL and the three writes that have an effect. -/
theorem statusLayoutAndClear : Obligations.StatusLayoutAndClear := by
  unfold Obligations.StatusLayoutAndClear
  refine ⟨State.statusWord_fields, rfl, fun s w rest hr h => ?_, fun s => ?_, rfl,
    fun s w rest hr => ⟨fun hw h => ?_, fun hw h => ?_, fun hp h => ?_⟩⟩
  · rw [step_statusWrite hr h, State.writeStatus_eq]
  · obtain ⟨hie, -⟩ := s.ctrl_fields
    obtain ⟨-, hdone, -⟩ := s.statusWord_fields
    rw [hie, hdone, State.irq, Bool.and_eq_true]
  · refine ⟨_, step_statusWrite hr h, State.irq_of_not_done ?_⟩
    rw [State.writeStatus_done, hw, Bool.not_true, Bool.and_false]
  · exact ⟨_, step_ctrlWrite hr h, State.irq_of_not_ie (State.writeCtrl_ie hw)⟩
  · refine ⟨_, step_cmdWrite hr h, State.irq_of_not_done ?_⟩
    rw [State.issue_idle { s with inputs := rest } w hp]

end Sys2Proof.Machine
end

section
/-! PROOFS. Memory as the host and the commands find it: a refused access has no effect, and the codewords are one sequence
of bits. -/

namespace Sys2Proof.Machine

/-! ### A refused access -/

/-- An access of another width, at an address that is no multiple of 4, or outside the window names no register (R82). An
aligned BASE makes an address and its offset the same modulo 4. -/
theorem State.legalOffset_eq_none {s : State} {addr width : Nat} (hbase : s.baseAligned)
    (h : width ≠ 32 ∨ addr % 4 ≠ 0 ∨ addr < s.cfg.base ∨ s.cfg.base + 64 ≤ addr) :
    s.legalOffset addr width = none := by
  have hmod : s.cfg.base % 64 = 0 := hbase
  refine if_neg fun hlegal => ?_
  simp only [Bool.and_eq_true, beq_iff_eq, decide_eq_true_eq] at hlegal
  obtain ⟨⟨⟨⟨-, hwidth⟩, hlo⟩, hhi⟩, halign⟩ := hlegal
  omega

theorem State.hostAccess_read_refused {s : State} {addr width : Nat} (h : s.legalOffset addr width = none) :
    s.hostAccess (.read addr width) = { s with busData := 0 } := by
  simp only [State.hostAccess, State.busRead, h]

theorem State.hostAccess_write_refused {s : State} {addr width : Nat} (w : Word)
    (h : s.legalOffset addr width = none) : s.hostAccess (.write addr width w) = s := by
  simp only [State.hostAccess, State.busWrite, h]

/-- Settles O14: a refused access names no register, so a read answers 0 and a write leaves the state alone. -/
theorem refusedAccessHasNoEffect : Obligations.RefusedAccessHasNoEffect := by
  unfold Obligations.RefusedAccessHasNoEffect
  intro s addr width rest hbase h
  have hoff : State.legalOffset { s with inputs := rest } addr width = none := State.legalOffset_eq_none hbase h
  refine ⟨fun hin => ?_, fun w hin => ?_⟩
  · rw [step_access hin, State.hostAccess_read_refused hoff]
  · rw [step_access hin, State.hostAccess_write_refused w hoff]

/-! ### The codewords as a sequence of bits -/

@[simp] theorem byteBits_length (b : Byte) : (byteBits b).length = 8 := rfl

/-- Entry `j` of a codeword's bits is its bit `7 - j`. -/
theorem getElem?_byteBits (b : Byte) {j : Nat} (hj : j < 8) : (byteBits b)[j]? = some (b.getLsbD (7 - j)) := by
  have hmap : byteBits b = (List.range 8).map (fun i => b.getLsbD (7 - i)) := rfl
  simp [hmap, List.getElem?_range hj]

@[simp] theorem bitStream_nil : bitStream [] = [] := rfl

@[simp] theorem bitStream_cons (b : Byte) (cw : List Byte) : bitStream (b :: cw) = byteBits b ++ bitStream cw := rfl

/-- Bit `k` of the sequence stands in codeword `k / 8` (R84). -/
theorem getElem?_bitStream (cw : List Byte) (k : Nat) :
    (bitStream cw)[k]? = (cw[k / 8]?).map (fun b => b.getLsbD (7 - k % 8)) := by
  induction cw generalizing k with
  | nil => simp
  | cons b cw ih =>
    rw [bitStream_cons]
    by_cases hk : k < 8
    · rw [List.getElem?_append_left hk, getElem?_byteBits b hk, Nat.div_eq_of_lt hk, Nat.mod_eq_of_lt hk]
      rfl
    · obtain ⟨j, rfl⟩ : ∃ j, k = j + 8 := ⟨k - 8, by omega⟩
      rw [List.getElem?_append_right (by simp), byteBits_length, Nat.add_sub_cancel, ih, Nat.add_div_right _ (by decide),
        Nat.add_mod_right, List.getElem?_cons_succ]

/-- Settles O53: `getElem?_bitStream`, with the bit written as R84 writes it. -/
theorem codewordBitsRunMsbFirst : Obligations.CodewordBitsRunMsbFirst := by
  unfold Obligations.CodewordBitsRunMsbFirst
  intro cw k
  simp only [getElem?_bitStream, BitVec.getLsbD, Nat.testBit_eq_decide_div_mod_eq]

end Sys2Proof.Machine
end

section
/-! PROOFS. The encoding as a list of fields: each row of R120 cuts the 32 bits of its command into fields, from bit 31 down.
The encoder writes the fields, the decoder accepts the words that hold them, and the match and mask of the row pick out the
fixed ones. So the statements on the encoding are facts about lists of fields. -/

namespace Sys2Proof

open Machine

/-! ### Fields -/

/-- A field of a command word (R111 to R117): its number of bits, what it holds, and whether every command of its row holds
the same there (the opcode and the must-be-zero bits). -/
structure WordField where
  width : Nat
  value : Nat
  isFixed : Bool

/-- An opcode or must-be-zero field. -/
abbrev WordField.fixed (width value : Nat) : WordField := ⟨width, value, true⟩

/-- A field that carries an operand. -/
abbrev WordField.operand (width value : Nat) : WordField := ⟨width, value, false⟩

/-- The fields of a command's word, from bit 31 down (R112 to R120). -/
def Instr.fields (i : Instr) : List WordField :=
  match i with
  | .nop => [.fixed 8 0x00, .fixed 24 0]
  | .gexp n => [.fixed 8 0x10, .fixed 8 0, .operand 16 n]
  | .glog a => [.fixed 8 0x11, .fixed 16 0, .operand 8 a.toNat]
  | .gmul a b => [.fixed 8 0x12, .fixed 8 0, .operand 8 a.toNat, .operand 8 b.toNat]
  | .pclr d => [.fixed 8 0x20, .operand 4 d, .fixed 20 0]
  | .ppush d b => [.fixed 8 0x21, .operand 4 d, .fixed 12 0, .operand 8 b.toNat]
  | .prd d idx => [.fixed 8 0x22, .operand 4 d, .fixed 4 0, .operand 16 idx]
  | .plen d => [.fixed 8 0x23, .operand 4 d, .fixed 20 0]
  | .pnorm d a shift => [.fixed 8 0x24, .operand 4 d, .operand 4 a, .operand 16 shift]
  | .pmul d a b => [.fixed 8 0x30, .operand 4 d, .operand 4 a, .operand 4 b, .fixed 12 0]
  | .pmod d a b => [.fixed 8 0x31, .operand 4 d, .operand 4 a, .operand 4 b, .fixed 12 0]
  | .pgen d n => [.fixed 8 0x32, .operand 4 d, .fixed 4 0, .operand 16 n]
  | .rsec d a n => [.fixed 8 0x33, .operand 4 d, .operand 4 a, .operand 16 n]
  | .cclr => [.fixed 8 0x40, .fixed 24 0]
  | .cpush b => [.fixed 8 0x41, .fixed 16 0, .operand 8 b.toNat]
  | .crd idx => [.fixed 8 0x42, .fixed 8 0, .operand 16 idx]
  | .cpushp a => [.fixed 8 0x43, .fixed 4 0, .operand 4 a, .fixed 16 0]
  | .clen => [.fixed 8 0x44, .fixed 24 0]
  | .mskel v => [.fixed 8 0x50, .fixed 18 0, .operand 6 v]
  | .mfmt t mask lvl =>
    [.fixed 8 0x51, .fixed 12 0, .operand 1 (bit t), .operand 3 mask.val, .operand 2 lvl.val, .fixed 6 0]
  | .mveri t => [.fixed 8 0x52, .fixed 12 0, .operand 1 (bit t), .fixed 11 0]
  | .mdark t => [.fixed 8 0x53, .fixed 12 0, .operand 1 (bit t), .fixed 11 0]
  | .mdata mask => [.fixed 8 0x54, .fixed 13 0, .operand 3 mask.val, .fixed 8 0]
  | .mbuild t mask lvl v =>
    [.fixed 8 0x55, .fixed 12 0, .operand 1 (bit t), .operand 3 mask.val, .operand 2 lvl.val, .operand 6 v]
  | .mpen => [.fixed 8 0x56, .fixed 24 0]
  | .msel lvl v => [.fixed 8 0x57, .fixed 16 0, .operand 2 lvl.val, .operand 6 v]
  | .mauto lvl v => [.fixed 8 0x58, .fixed 16 0, .operand 2 lvl.val, .operand 6 v]
  | .mrd row col => [.fixed 8 0x60, .operand 12 row, .operand 12 col]
  | .mctx row col => [.fixed 8 0x61, .operand 12 row, .operand 12 col]
  | .mbrd row col => [.fixed 8 0x62, .operand 12 row, .operand 12 col]
  | .mbsize => [.fixed 8 0x63, .fixed 24 0]

/-- The number of bits that the fields fill. -/
def totalWidth (fs : List WordField) : Nat :=
  match fs with
  | [] => 0
  | f :: fs => f.width + totalWidth fs

/-- The number whose bits are the fields, the first one on top. -/
def pack (fs : List WordField) : Nat :=
  match fs with
  | [] => 0
  | f :: fs => f.value * 2 ^ totalWidth fs + pack fs

/-- The number `n` has in each field's bits what the field holds. -/
def Holds (n : Nat) (fs : List WordField) : Prop :=
  match fs with
  | [] => True
  | f :: fs => n / 2 ^ totalWidth fs % 2 ^ f.width = f.value ∧ Holds n fs

/-- The same for the fixed fields alone: `n` belongs to the row. -/
def HoldsFixed (n : Nat) (fs : List WordField) : Prop :=
  match fs with
  | [] => True
  | f :: fs => (f.isFixed = true → n / 2 ^ totalWidth fs % 2 ^ f.width = f.value) ∧ HoldsFixed n fs

/-- The fixed fields' values, as the match column of R120 shows them. -/
def matchOf (fs : List WordField) : Nat :=
  match fs with
  | [] => 0
  | f :: fs => (if f.isFixed then f.value else 0) * 2 ^ totalWidth fs + matchOf fs

/-- Ones in the fixed fields, as the mask column of R120 shows them. -/
def maskOf (fs : List WordField) : Nat :=
  match fs with
  | [] => 0
  | f :: fs => (if f.isFixed then 2 ^ f.width - 1 else 0) * 2 ^ totalWidth fs + maskOf fs

/-! ### A number and its fields -/

/-- Every field's value fits its bits. -/
def Fits (fs : List WordField) : Prop :=
  ∀ f ∈ fs, f.value < 2 ^ f.width

theorem fits_cons {f : WordField} {fs : List WordField} : Fits (f :: fs) ↔ f.value < 2 ^ f.width ∧ Fits fs := by
  simp [Fits]

/-- A field on top of a number of `m` bits stands in the bits from `m` on, and the number in the bits below. -/
theorem eq_mul_two_pow_add_iff {n v p m : Nat} (hp : p < 2 ^ m) :
    v * 2 ^ m + p = n ↔ n / 2 ^ m = v ∧ n % 2 ^ m = p := by
  rw [Nat.div_mod_unique (Nat.two_pow_pos m), Nat.add_comm, Nat.mul_comm]
  exact (and_iff_left hp).symm

theorem mul_two_pow_add_lt {v p k m : Nat} (hv : v < 2 ^ k) (hp : p < 2 ^ m) : v * 2 ^ m + p < 2 ^ (k + m) :=
  calc v * 2 ^ m + p < (v + 1) * 2 ^ m := by rw [Nat.add_one_mul]; omega
    _ ≤ 2 ^ k * 2 ^ m := Nat.mul_le_mul_right _ hv
    _ = 2 ^ (k + m) := (Nat.pow_add ..).symm

theorem pack_lt {fs : List WordField} (h : Fits fs) : pack fs < 2 ^ totalWidth fs := by
  induction fs with
  | nil => exact Nat.one_pos
  | cons f fs ih =>
    obtain ⟨hf, hfs⟩ := fits_cons.mp h
    exact mul_two_pow_add_lt hf (ih hfs)

/-- A number holds the fields exactly when they fit and it is, up to the bits above them, the number they pack to. -/
theorem holds_iff {n : Nat} {fs : List WordField} : Holds n fs ↔ Fits fs ∧ pack fs = n % 2 ^ totalWidth fs := by
  induction fs with
  | nil => simp [Holds, Fits, pack, totalWidth, Nat.mod_one]
  | cons f fs ih =>
    have hdiv : n % 2 ^ (f.width + totalWidth fs) / 2 ^ totalWidth fs = n / 2 ^ totalWidth fs % 2 ^ f.width := by
      rw [Nat.add_comm, Nat.pow_add, Nat.mod_mul_right_div_self]
    have hmod : n % 2 ^ (f.width + totalWidth fs) % 2 ^ totalWidth fs = n % 2 ^ totalWidth fs :=
      Nat.mod_mod_of_dvd _ (Nat.pow_dvd_pow 2 (Nat.le_add_left ..))
    simp only [Holds, ih, fits_cons, pack, totalWidth]
    constructor
    · rintro ⟨hf, hfits, hpack⟩
      refine ⟨⟨hf ▸ Nat.mod_lt _ (Nat.two_pow_pos _), hfits⟩, ?_⟩
      rw [eq_mul_two_pow_add_iff (pack_lt hfits), hdiv, hmod]
      exact ⟨hf, hpack.symm⟩
    · rintro ⟨⟨-, hfits⟩, hpack⟩
      rw [eq_mul_two_pow_add_iff (pack_lt hfits), hdiv, hmod] at hpack
      obtain ⟨hf, hrest⟩ := hpack
      exact ⟨hf, hfits, hrest.symm⟩

theorem Holds.holdsFixed {n : Nat} {fs : List WordField} (h : Holds n fs) : HoldsFixed n fs := by
  induction fs with
  | nil => trivial
  | cons f fs ih => exact ⟨fun _ => h.1, ih h.2⟩

theorem maskOf_lt (fs : List WordField) : maskOf fs < 2 ^ totalWidth fs := by
  induction fs with
  | nil => exact Nat.one_pos
  | cons f fs ih =>
    refine mul_two_pow_add_lt ?_ ih
    have := Nat.two_pow_pos f.width
    split <;> omega

theorem matchOf_lt {fs : List WordField} (h : ∀ f ∈ fs, f.isFixed = true → f.value < 2 ^ f.width) :
    matchOf fs < 2 ^ totalWidth fs := by
  induction fs with
  | nil => exact Nat.one_pos
  | cons f fs ih =>
    obtain ⟨hf, hfs⟩ := List.forall_mem_cons.mp h
    refine mul_two_pow_add_lt ?_ (ih hfs)
    split
    · exact hf ‹_›
    · exact Nat.two_pow_pos _

/-- Masking the bits from `m` on and the bits below with the two parts of a mask. -/
theorem and_mul_two_pow_add {n c d m : Nat} (hd : d < 2 ^ m) :
    (n &&& (c * 2 ^ m + d)) / 2 ^ m = n / 2 ^ m &&& c ∧ (n &&& (c * 2 ^ m + d)) % 2 ^ m = n &&& d := by
  obtain ⟨hdiv, hmod⟩ := (eq_mul_two_pow_add_iff (v := c) hd).mp rfl
  have hle : n &&& d < 2 ^ m := Nat.lt_of_le_of_lt Nat.and_le_right hd
  refine ⟨by rw [Nat.and_div_two_pow, hdiv], ?_⟩
  calc (n &&& (c * 2 ^ m + d)) % 2 ^ m = (n &&& d) % 2 ^ m := by
        rw [Nat.and_mod_two_pow, hmod, Nat.and_mod_two_pow, Nat.mod_eq_of_lt hd]
    _ = n &&& d := Nat.mod_eq_of_lt hle

/-- Masked with ones in the fixed fields, a number is the match exactly when it holds those fields. -/
theorem and_maskOf_eq_matchOf_iff {n : Nat} {fs : List WordField}
    (h : ∀ f ∈ fs, f.isFixed = true → f.value < 2 ^ f.width) : n &&& maskOf fs = matchOf fs ↔ HoldsFixed n fs := by
  induction fs with
  | nil => simp [HoldsFixed, maskOf, matchOf]
  | cons f fs ih =>
    obtain ⟨-, hfs⟩ := List.forall_mem_cons.mp h
    obtain ⟨hdiv, hmod⟩ := and_mul_two_pow_add (n := n) (c := if f.isFixed then 2 ^ f.width - 1 else 0) (maskOf_lt fs)
    rw [HoldsFixed, ← ih hfs, eq_comm, maskOf, matchOf, eq_mul_two_pow_add_iff (matchOf_lt hfs), hdiv, hmod]
    refine and_congr_left' ?_
    cases f.isFixed <;> simp [Nat.and_two_pow_sub_one_eq_mod]

/-! ### The fields of each command, row by row -/

theorem testBitField_eq (t : Bool) : testBitField t = bit t * 2 ^ 11 := by
  cases t <;> rfl

theorem bit_le_one (t : Bool) : bit t ≤ 1 :=
  Nat.le_of_lt_succ (bit_lt_two t)

theorem bit_beq_one (t : Bool) : (bit t == 1) = t := by
  cases t <;> rfl

theorem bit_mod_two_beq_one (n : Nat) : bit (n % 2 == 1) = n % 2 := by
  obtain h | h := Nat.mod_two_eq_zero_or_one n <;> rw [h] <;> rfl

theorem Byte.toNat_lt (b : Byte) : b.toNat < 256 :=
  b.isLt

theorem Instr.totalWidth_fields (i : Instr) : totalWidth i.fields = 32 := by
  cases i <;> rfl

/-- The encoder writes the fields. -/
theorem encode_eq_pack (i : Instr) : encode i = BitVec.ofNat 32 (pack i.fields) := by
  cases i <;>
    simp only [encode, wordOf, Instr.fields, pack, totalWidth, testBitField_eq, Nat.add_assoc, Nat.zero_mul, Nat.zero_add,
      Nat.add_zero, Nat.pow_zero, Nat.mul_one]

/-- A command is well formed exactly when its operands fit their fields. -/
theorem Instr.wellFormed_iff_fits (i : Instr) : i.WellFormed ↔ Fits i.fields := by
  cases i <;> simp [Instr.WellFormed, Instr.wellFormed, Fits, Instr.fields, Byte.toNat_lt, bit_le_one]

theorem Instr.fixed_fits (i : Instr) : ∀ f ∈ i.fields, f.isFixed = true → f.value < 2 ^ f.width := by
  cases i <;> simp [Instr.fields]

/-- The match and mask columns of R120 show the fixed fields. -/
theorem Instr.matchMask_eq (i : Instr) :
    i.matchMask = (BitVec.ofNat 32 (matchOf i.fields), BitVec.ofNat 32 (maskOf i.fields)) := by
  cases i <;> simp [Instr.matchMask, Instr.fields, matchOf, maskOf, totalWidth]

theorem Instr.matchMask_mem_encodingTable (i : Instr) : i.matchMask ∈ encodingTable := by
  cases i <;>
    simp only [encodingTable, rowRepresentatives, List.map_cons, List.mem_cons, Instr.matchMask, true_or, or_true]

theorem ifZero_eq_ok {zero : Bool} {i j : Instr} : ifZero zero i = .ok j ↔ zero = true ∧ i = j := by
  cases zero <;> simp [ifZero]

/-- A decoded word holds its command's fields: the must-be-zero bits are the row's check, the operands are read. -/
theorem holds_of_decode_eq_ok {w : Word} {i : Instr} (h : decode w = .ok i) : Holds w.toNat i.fields := by
  unfold decode at h
  split at h
  case h_32 => cases h -- an opcode that R119 does not list
  -- The rows without must-be-zero bits: PNORM, RSEC, MRD, MCTX and MBRD.
  case h_9 | h_13 | h_28 | h_29 | h_30 =>
    rename_i hopc
    cases h
    simpa [Holds, Instr.fields, totalWidth, bits] using hopc
  all_goals
    rename_i hopc
    obtain ⟨hzero, rfl⟩ := ifZero_eq_ok.mp h
    simp [bits] at hopc hzero
    simp [Holds, Instr.fields, totalWidth, bitsByte, bits, bit_mod_two_beq_one, hopc, hzero]

/-- A word that holds the fields of a command decodes to it. -/
theorem decode_eq_ok_of_holds {w : Word} {i : Instr} (h : Holds w.toNat i.fields) : decode w = .ok i := by
  cases i
  all_goals
    simp [Holds, Instr.fields, totalWidth] at h
    simp [decode, bits, h, ifZero, bitsByte, bit_beq_one]

/-- A word that belongs to a command's row decodes, to a command of that row. -/
theorem decode_of_holdsFixed {w : Word} {r : Instr} (h : HoldsFixed w.toNat r.fields) :
    ∃ i, decode w = .ok i ∧ i.matchMask = r.matchMask := by
  cases r
  all_goals
    simp [HoldsFixed, Instr.fields, totalWidth] at h
    simp [decode, bits, h, ifZero, Instr.matchMask]

/-! ### The encoder, the decoder and the table agree -/

/-- The words that hold a command's fields: its encoding alone, and none where an operand does not fit. -/
theorem holds_fields_iff {w : Word} {i : Instr} : Holds w.toNat i.fields ↔ i.WellFormed ∧ encode i = w := by
  rw [holds_iff, i.totalWidth_fields, Nat.mod_eq_of_lt w.isLt, i.wellFormed_iff_fits, encode_eq_pack]
  refine and_congr_right fun hfits => ?_
  have hlt : pack i.fields < 2 ^ 32 := i.totalWidth_fields ▸ pack_lt hfits
  rw [← BitVec.toNat_inj, BitVec.toNat_ofNat, Nat.mod_eq_of_lt hlt]

/-- A word belongs to a row of R120 exactly when it holds the row's fixed fields. -/
theorem and_mask_eq_match_iff {w : Word} {i : Instr} :
    w &&& i.matchMask.2 = i.matchMask.1 ↔ HoldsFixed w.toNat i.fields := by
  have hmask : maskOf i.fields < 2 ^ 32 := i.totalWidth_fields ▸ maskOf_lt i.fields
  have hmatch : matchOf i.fields < 2 ^ 32 := i.totalWidth_fields ▸ matchOf_lt i.fixed_fits
  rw [← and_maskOf_eq_matchOf_iff i.fixed_fits, i.matchMask_eq, ← BitVec.toNat_inj, BitVec.toNat_and,
    BitVec.toNat_ofNat, BitVec.toNat_ofNat, Nat.mod_eq_of_lt hmask, Nat.mod_eq_of_lt hmatch]

/-- The decoder inverts the encoder on the well-formed commands, and accepts nothing else (R122). -/
theorem decode_eq_ok_iff {w : Word} {i : Instr} : decode w = .ok i ↔ i.WellFormed ∧ encode i = w := by
  rw [← holds_fields_iff]
  exact ⟨holds_of_decode_eq_ok, decode_eq_ok_of_holds⟩

/-- A word that a row of the table matches decodes to a command of that row. -/
theorem decode_of_row_matches {w : Word} {row : Word × Word} (hrow : row ∈ encodingTable) (hw : w &&& row.2 = row.1) :
    ∃ i, decode w = .ok i ∧ i.matchMask = row := by
  obtain ⟨r, -, rfl⟩ := List.mem_map.mp hrow
  exact decode_of_holdsFixed (and_mask_eq_match_iff.mp hw)

theorem row_matches_of_decode {w : Word} {i : Instr} (h : decode w = .ok i) : w &&& i.matchMask.2 = i.matchMask.1 :=
  and_mask_eq_match_iff.mpr (holds_of_decode_eq_ok h).holdsFixed

/-- Settles O1, by `decode_eq_ok_iff`: the word of a well-formed command holds the command's fields. -/
theorem decodeOfEncodeIsTheCommand : Obligations.DecodeOfEncodeIsTheCommand := by
  unfold Obligations.DecodeOfEncodeIsTheCommand
  exact fun i h => decode_eq_ok_iff.mpr ⟨h, rfl⟩

/-- Settles O2, the other direction of `decode_eq_ok_iff`. -/
theorem everyDecodedWordEncodesBack : Obligations.EveryDecodedWordEncodesBack := by
  unfold Obligations.EveryDecodedWordEncodesBack
  exact fun w i h => decode_eq_ok_iff.mp h

/-- Settles O3: two rows that match one word are both the row of the one command the word decodes to. -/
theorem decoderFollowsTheEncodingTable : Obligations.DecoderFollowsTheEncodingTable := by
  unfold Obligations.DecoderFollowsTheEncodingTable
  refine fun w => ⟨⟨?_, ?_⟩, fun i h => ⟨i.matchMask_mem_encodingTable, row_matches_of_decode h⟩, ?_⟩
  · rintro ⟨i, h⟩
    exact ⟨i.matchMask, i.matchMask_mem_encodingTable, row_matches_of_decode h⟩
  · rintro ⟨row, hrow, hw⟩
    obtain ⟨i, hi, -⟩ := decode_of_row_matches hrow hw
    exact ⟨i, hi⟩
  · intro row hrow row' hrow' hw hw'
    obtain ⟨i, hi, rfl⟩ := decode_of_row_matches hrow hw
    obtain ⟨j, hj, rfl⟩ := decode_of_row_matches hrow' hw'
    cases hi.symm.trans hj
    rfl

/-- Settles O4, by running the decoder on each word. -/
theorem sampleWordsDecode : Obligations.SampleWordsDecode := by
  unfold Obligations.SampleWordsDecode
  exact ⟨rfl, rfl, rfl, rfl, rfl, rfl, rfl, rfl, rfl⟩

end Sys2Proof
end

section
/-! PROOFS. How a pending word runs: an illegal one faults, a command does the same between any surroundings, and so a bare
command line runs its command once. -/

namespace Sys2Proof.Machine

/-! ### The engine's turn -/

/-- A fault with `w` pending writes what R345 lists. -/
theorem State.faulted_eq_afterFault {s : State} {w : Word} (h : s.pending = some w) (c : FaultCode) :
    s.faulted c = s.afterFault w c.code := by
  simp [State.faulted, State.completed, State.afterFault, State.commandWord, h]

theorem engineTurn_ready {s : State} {w : Word} (h : s.ready w) : engineTurn s = executeWord w s := by
  obtain ⟨hreset, hpending⟩ := h
  simp [engineTurn, hreset, hpending]

theorem executeWord_ok {w : Word} {i : Instr} (h : decode w = .ok i) (s : State) : executeWord w s = exec i s := by
  simp [executeWord, h]

theorem executeWord_error {w : Word} {e : DecodeError} (h : decode w = .error e) (s : State) :
    executeWord w s = .next (s.faulted .illegal) := by
  simp [executeWord, h]

theorem step_engine {s : State} {rest : List Input} (h : s.inputs = .engine :: rest) :
    step s = engineTurn { s with inputs := rest } := by
  simp only [step, advance, h, perform]

/-- The engine's turn, as an event or because no event is left. -/
theorem step_engineNext {s : State} {rest : List Input} (h : s.engineNext rest) :
    step s = engineTurn { s with inputs := rest } := by
  obtain ⟨hnil, rfl⟩ | hengine := h
  · have hsame : s = { s with inputs := [] } := by rw [← hnil]
    rw [← hsame]
    simp only [step, advance, hnil]
  · exact step_engine hengine

/-- Settles O6: a word that no row matches does not decode. -/
theorem illegalWordFaults : Obligations.IllegalWordFaults := by
  unfold Obligations.IllegalWordFaults
  intro s w rest hnext hready hrows
  obtain ⟨e, hd⟩ : ∃ e, decode w = .error e := by
    cases hd : decode w with
    | error e => exact ⟨e, rfl⟩
    | ok i => exact absurd (row_matches_of_decode hd) (hrows _ i.matchMask_mem_encodingTable)
  have hpending : s.pending = some w := hready.2
  calc step s = engineTurn { s with inputs := rest } := step_engineNext hnext
    _ = executeWord w { s with inputs := rest } := engineTurn_ready hready
    _ = .next (State.faulted { s with inputs := rest } .illegal) := executeWord_error hd _
    _ = .next (State.afterFault { s with inputs := rest } w 1) :=
      congrArg _ (State.faulted_eq_afterFault (s := { s with inputs := rest }) hpending .illegal)

/-! ### A command and the surroundings -/

/-- The state with other events to come and other data in the last read. -/
def State.surrounded (rest : List Input) (d : Word) (s : State) : State :=
  { s with inputs := rest, busData := d }

/-- The second computation is the first one between other surroundings. -/
def SameBut (rest : List Input) (d : Word) (r r' : Check State) : Prop :=
  r' = r.map (State.surrounded rest d)

/-- Where the first outcome is a next state, the second one is that state between other surroundings. -/
def SameOutcome (rest : List Input) (d : Word) (o o' : Host.Outcome State Fault Refusal) : Prop :=
  ∀ t, o = .next t → o' = .next (t.surrounded rest d)

section
variable {rest : List Input} {d : Word}

theorem State.surrounded_cfg (s : State) : (s.surrounded rest d).cfg = s.cfg := rfl

theorem State.surrounded_cw (s : State) : (s.surrounded rest d).cw = s.cw := rfl

theorem SameBut.bind {α : Type} {x : Check α} {f f' : α → Check State} (h : ∀ a, SameBut rest d (f a) (f' a)) :
    SameBut rest d (x >>= f) (x >>= f') := by
  cases x with
  | error c => rfl
  | ok a => exact h a

theorem SameBut.finish {s : State} {r r' : Check State} (h : SameBut rest d r r') :
    SameOutcome rest d (finish s r) (finish (s.surrounded rest d) r') := by
  cases h
  intro t ht
  obtain ⟨u, rfl, rfl⟩ | ⟨c, rfl, rfl⟩ := finish_cases ht <;> rfl

/-! What a command writes, and that the surroundings are no part of it. -/

theorem SameBut.ok (u : State) : SameBut rest d (.ok u) (.ok (u.surrounded rest d)) := rfl

theorem SameBut.result (u : State) (v : Nat) :
    SameBut rest d (.ok (u.setResult v)) (.ok ((u.surrounded rest d).setResult v)) := rfl

theorem SameBut.poly (u : State) (k : Fin 4) (l : List Byte) (v : Nat) :
    SameBut rest d (.ok ((u.setPoly k l).setResult v)) (.ok (((u.surrounded rest d).setPoly k l).setResult v)) := rfl

theorem SameBut.codewords (u : State) (l : List Byte) (v : Nat) :
    SameBut rest d (.ok ((u.setCw l).setResult v)) (.ok (((u.surrounded rest d).setCw l).setResult v)) := rfl

theorem SameBut.cells (u : State) (g : Grid) (v : Nat) :
    SameBut rest d (.ok ((u.setMat g).setResult v)) (.ok (((u.surrounded rest d).setMat g).setResult v)) := rfl

theorem SameBut.matrix (u : State) (ver : Nat) (g : Grid) (v : Nat) :
    SameBut rest d (.ok ((u.startMatrix ver g).setResult v)) (.ok (((u.surrounded rest d).startMatrix ver g).setResult v)) :=
  rfl

theorem SameBut.score (u : State) (q : Score) (v : Nat) :
    SameBut rest d (.ok ((u.setScore q).setResult v)) (.ok (((u.surrounded rest d).setScore q).setResult v)) := rfl

theorem SameBut.scoredMatrix (u : State) (ver : Nat) (g : Grid) (q : Score) (v : Nat) :
    SameBut rest d (.ok (((u.startMatrix ver g).setScore q).setResult v))
      (.ok ((((u.surrounded rest d).startMatrix ver g).setScore q).setResult v)) := rfl

/-- A command neither reads nor writes the surroundings (R141). The cases go by the number of checks and computations
that the command makes, then by what it writes. -/
theorem exec_surrounded (i : Instr) (s : State) : SameOutcome rest d (exec i s) (exec i (s.surrounded rest d)) := by
  cases i with
  | nop | cclr => exact SameBut.finish (s := s) (.ok _)
  | gexp | clen => exact SameBut.finish (s := s) (.result _ _)
  | pclr => exact SameBut.finish (s := s) (.bind fun _ => .ok _)
  | glog | gmul | plen | crd => exact SameBut.finish (s := s) (.bind fun _ => .result _ _)
  | prd | mrd | mbsize => exact SameBut.finish (s := s) (.bind fun _ => .bind fun _ => .result _ _)
  | mctx | mbrd => exact SameBut.finish (s := s) (.bind fun _ => .bind fun _ => .bind fun _ => .result _ _)
  | ppush | pgen => exact SameBut.finish (s := s) (.bind fun _ => .bind fun _ => .poly _ _ _ _)
  | pnorm | rsec => exact SameBut.finish (s := s) (.bind fun _ => .bind fun _ => .bind fun _ => .poly _ _ _ _)
  | pmul | pmod =>
    exact SameBut.finish (s := s) (.bind fun _ => .bind fun _ => .bind fun _ => .bind fun _ => .bind fun _ =>
      .bind fun _ => .poly _ _ _ _)
  | cpush => exact SameBut.finish (s := s) (.bind fun _ => .codewords _ _ _)
  | cpushp => exact SameBut.finish (s := s) (.bind fun _ => .bind fun _ => .codewords _ _ _)
  | mskel | mbuild =>
    refine SameBut.finish (s := s) (.bind fun _ => ?_)
    exact .matrix _ _ _ _
  | mfmt | mdark | mdata =>
    refine SameBut.finish (s := s) (.bind fun _ => ?_)
    exact .cells _ _ _
  | mveri =>
    refine SameBut.finish (s := s) (.bind fun _ => ?_)
    change SameBut rest d (if s.ver < 7 then _ else _) (if s.ver < 7 then _ else _)
    split
    · exact .result _ _
    · exact .cells _ _ _
  | mpen => exact SameBut.finish (s := s) (.bind fun _ => .bind fun _ => .score _ _ _)
  | msel | mauto =>
    refine SameBut.finish (s := s) (.bind fun _ => ?_)
    rw [State.surrounded_cfg, State.surrounded_cw]
    exact .scoredMatrix _ _ _ _ _

end

/-! ### A bare command line -/

/-- The effect of a command leaves the build alone. -/
theorem Effect.cfg {s u : State} (h : Effect s u) : u.cfg = s.cfg := by
  induction h with
  | nothing => rfl
  | result _ _ ih | poly _ _ _ ih | codewords _ _ ih | matrix _ _ _ ih | cells _ _ ih | penalties _ _ ih => exact ih

/-- After a command the slot is empty, and the block is the same one, with its reset input where it was. -/
theorem exec_frame {i : Instr} {s t : State} (h : exec i s = .next t) :
    t.pending = none ∧ t.resetLine = s.resetLine ∧ t.cfg = s.cfg := by
  obtain ⟨c, hfault⟩ | ⟨u, e, hdone⟩ := exec_completes i s
  · cases h.symm.trans hfault
    exact ⟨rfl, rfl, rfl⟩
  · cases h.symm.trans hdone
    exact ⟨rfl, e.resetLine, e.cfg⟩

theorem run_succ {s t : State} (h : step s = .next t) (k : Nat) :
    Host.Core.run core (k + 1) s = Host.Core.run core k t := by
  have hcore : core.step s = .next t := h
  simp only [Host.Core.run, hcore]

/-- A poll returns STATUS and has no other effect. -/
theorem step_poll {s : State} (hr : s.resetLine = false) (rest : List Input) (d : Word) :
    step (s.surrounded (readEvent s.cfg.base 0x04 :: rest) d) = .next (s.surrounded rest s.statusWord) :=
  step_legalRead (s := s.surrounded _ d) (off := 0x04) hr (by decide) (by decide) rfl

/-- The polls of a `WAIT` that come before the completion change nothing but the last read's data. -/
theorem run_polls {s : State} (hr : s.resetLine = false) (rest : List Input) (k polls : Nat) (d : Word) :
    ∃ d', Host.Core.run core (k + polls) (s.surrounded (List.replicate polls (readEvent s.cfg.base 0x04) ++ rest) d) =
      Host.Core.run core k (s.surrounded rest d') := by
  induction polls generalizing d with
  | zero => exact ⟨d, rfl⟩
  | succ n ih =>
    obtain ⟨d', h⟩ := ih s.statusWord
    exact ⟨d', (run_succ (step_poll hr _ d) _).trans h⟩

/-- The engine's turn with the word of a command pending runs the command, whatever surrounds the block. -/
theorem step_engine_command {i : Instr} {s t : State} (hi : i.WellFormed) (hready : s.ready (encode i))
    (h : exec i s = .next t) (rest : List Input) (d : Word) :
    step (s.surrounded (.engine :: rest) d) = .next (t.surrounded rest d) :=
  calc step (s.surrounded (.engine :: rest) d) = engineTurn (s.surrounded rest d) := step_engine rfl
    _ = executeWord (encode i) (s.surrounded rest d) := engineTurn_ready hready
    _ = exec i (s.surrounded rest d) := executeWord_ok (decode_eq_ok_iff.mpr ⟨hi, rfl⟩) _
    _ = .next (t.surrounded rest d) := exec_surrounded i s t h

/-- The state of an idle block after it accepted the word of a command (R140). -/
def State.accepted (s : State) (i : Instr) : State :=
  { s with pending := some (encode i), started := none, done := false }

theorem step_commandLine {s : State} {i : Instr} {polls : Nat} {rest : List Input} (hr : s.resetLine = false)
    (hidle : s.pending = none) (h : s.inputs = commandEvents s.cfg.base polls i ++ rest) :
    step s = .next ((s.accepted i).surrounded (waitEvents s.cfg.base polls ++ rest) s.busData) :=
  (step_cmdWrite hr h).trans (congrArg _ (State.issue_idle _ _ hidle))

theorem waitEvents_append (base polls : Nat) (rest : List Input) : waitEvents base polls ++ rest =
    List.replicate polls (readEvent base 0x04) ++ .engine :: readEvent base 0x04 :: rest :=
  List.append_assoc ..

/-- Settles O26: the CMD write is accepted, the polls change nothing, the engine's turn runs the command between the
surroundings of that moment, and the last poll reads the STATUS of an empty slot. -/
theorem handshakeRunsTheCommand : Obligations.HandshakeRunsTheCommand := by
  unfold Obligations.HandshakeRunsTheCommand
  intro s t i polls rest hi hr hidle hin hexec
  obtain ⟨hpending, hreset, hcfg⟩ := exec_frame hexec
  obtain ⟨hbusy, -⟩ := t.statusWord_fields
  have hwrite := step_commandLine hr hidle hin
  rw [waitEvents_append] at hwrite
  obtain ⟨d, hpolls⟩ := run_polls (s := s.accepted i) hr (.engine :: readEvent s.cfg.base 0x04 :: rest) 2 polls s.busData
  have hturn := step_engine_command (s := s.accepted i) hi ⟨hr, rfl⟩ hexec (readEvent s.cfg.base 0x04 :: rest) d
  have hlast : step (t.surrounded (readEvent s.cfg.base 0x04 :: rest) d) = .next (t.surrounded rest t.statusWord) :=
    hcfg ▸ step_poll (hreset.trans hr) rest d
  refine ⟨t.surrounded rest t.statusWord, ?_, rfl, hbusy.trans (by rw [hpending]; rfl)⟩
  calc Host.Core.run core (polls + 3) s
    _ = Host.Core.run core (polls + 2) _ := run_succ hwrite _
    _ = Host.Core.run core (2 + polls) _ := by rw [Nat.add_comm]; rfl
    _ = Host.Core.run core 2 _ := hpolls
    _ = Host.Core.run core 1 _ := run_succ hturn 1
    _ = Host.Core.run core 0 _ := run_succ hlast 0
    _ = .next (t.surrounded rest t.statusWord) := rfl

/-! ### The checks of the buffer commands -/

/-- A computation that ends in a fault writes what R345 lists and commits nothing. -/
theorem finish_fault {s : State} {w : Word} {r : Check State} {c : FaultCode} (h : s.pending = some w)
    (hr : r = .error c) : finish s r = .next (s.afterFault w c.code) := by
  rw [hr, finish_error, State.faulted_eq_afterFault h]

/-- A buffer field faults BAD_BUF when its own number is 4 or more, and also when all that follows it does. -/
theorem bufferIndex_bind_badBuf {α : Type} {k : Nat} {f : Fin 4 → Check α}
    (h : 4 ≤ k ∨ ∀ j, f j = .error .badBuf) : (bufferIndex k >>= f) = .error .badBuf := by
  by_cases hk : 4 ≤ k
  · rw [bufferIndex_of_ge hk, check_error_bind]
  · rw [bufferIndex_of_lt (Nat.not_le.mp hk), check_ok_bind, h.resolve_left hk]

theorem bufferIndex_val_bind_error {α : Type} {d : Fin 4} {f : Fin 4 → Check α} {c : FaultCode} (h : f d = .error c) :
    (bufferIndex d.val >>= f) = .error c := by
  rw [bufferIndex_eq_ok.mpr rfl, check_ok_bind, h]

theorem require_bind_error {α : Type} {p : Prop} [Decidable p] (h : ¬p) (c : FaultCode) (f : Unit → Check α) :
    (require (decide p) c >>= f) = .error c := by
  rw [decide_eq_false h, require_false, check_error_bind]

/-- Settles O34: each command checks its buffer fields first, in the order of the fields, then the room or the index. -/
theorem bufferChecksFault : Obligations.BufferChecksFault := by
  unfold Obligations.BufferChecksFault
  intro s w hp
  refine ⟨fun d hd => ?_, fun d a n h => ?_, fun d a b h => ?_, fun d b hfull => ?_, fun d idx hend => ?_,
    fun b hfull => ?_, fun idx hend => ?_, fun a hfull => ?_⟩
  · have hfault : ∀ f : Fin 4 → Check State, finish s (bufferIndex d >>= f) = .next (s.afterFault w 2) :=
      fun _ => finish_fault hp (bufferIndex_bind_badBuf (.inl hd))
    exact ⟨hfault _, fun _ => hfault _, fun _ => hfault _, hfault _, fun _ => hfault _, hfault _⟩
  · have hfault : ∀ f : Fin 4 → Fin 4 → Check State,
        finish s (bufferIndex d >>= fun d => bufferIndex a >>= f d) = .next (s.afterFault w 2) :=
      fun _ => finish_fault hp (bufferIndex_bind_badBuf (h.imp_right fun ha _ => bufferIndex_bind_badBuf (.inl ha)))
    exact ⟨hfault _, hfault _⟩
  · have hfault : ∀ f : Fin 4 → Fin 4 → Fin 4 → Check State,
        finish s (bufferIndex d >>= fun d => bufferIndex a >>= fun a => bufferIndex b >>= f d a) =
          .next (s.afterFault w 2) :=
      fun _ => finish_fault hp (bufferIndex_bind_badBuf (h.imp_right fun h _ =>
        bufferIndex_bind_badBuf (h.imp_right fun hb _ => bufferIndex_bind_badBuf (.inl hb))))
    exact ⟨hfault _, hfault _⟩
  · refine finish_fault (c := .overflow) hp (bufferIndex_val_bind_error ?_)
    exact require_bind_error (Nat.not_lt.mpr hfull) _ _
  · refine finish_fault (c := .range) hp (bufferIndex_val_bind_error ?_)
    exact require_bind_error (Nat.not_lt.mpr hend) _ _
  · exact finish_fault hp (require_bind_error (Nat.not_lt.mpr hfull) _ _)
  · exact finish_fault hp (require_bind_error (Nat.not_lt.mpr hend) _ _)
  · refine finish_fault (c := .overflow) hp (bufferIndex_val_bind_error (require_bind_error ?_ _ _))
    rw [List.length_append]
    exact Nat.not_le.mpr hfull

end Sys2Proof.Machine
end

section
/-! PROOFS. The engine and its command: what a step runs, which part of the state each command can write, and that the
pending command is executed within the events left. -/

namespace Sys2Proof.Machine

/-! ### The pending command, by one step -/

/-- NOP is the completion alone (R144). -/
theorem exec_nop (s : State) : exec .nop s = .next s.completed := rfl

/-- Settles O27: NOP is the completion, which writes the slot, the record of the start, and DONE. -/
theorem nopCompletes : Obligations.NopCompletes := by
  unfold Obligations.NopCompletes
  exact exec_nop

/-- Settles O9: the write reaches `State.issue`, which accepts or drops it by the pending slot. -/
theorem cmdWriteIssues : Obligations.CmdWriteIssues := by
  unfold Obligations.CmdWriteIssues
  intro s w rest hr h
  have hwrite := step_cmdWrite hr h
  exact ⟨fun hidle => hwrite.trans (congrArg _ (State.issue_idle _ w hidle)),
    fun v hbusy => hwrite.trans (congrArg _ (State.issue_busy _ v w hbusy))⟩

/-- With no command pending the engine does nothing (R141). -/
theorem engineTurn_idle {s : State} (h : s.pending = none) : engineTurn s = .next s := by
  simp [engineTurn, h]

/-- When the engine moves, it runs the command that the pending word decodes to (R141, R143). -/
theorem step_engineNext_command {s : State} {rest : List Input} {w : Word} {i : Instr} (hnext : s.engineNext rest)
    (hready : s.ready w) (hi : decode w = .ok i) : step s = exec i { s with inputs := rest } :=
  calc step s = engineTurn { s with inputs := rest } := step_engineNext hnext
    _ = executeWord w { s with inputs := rest } := engineTurn_ready hready
    _ = exec i { s with inputs := rest } := executeWord_ok hi _

theorem step_start {s : State} {rest : List Input} (h : s.inputs = .start :: rest) :
    step s = .next (State.start { s with inputs := rest }) := by
  simp only [step, advance, h, perform]

/-- A start with a command pending records the BORDER that the command uses. -/
theorem State.start_ready {s : State} {w : Word} (h : s.ready w) :
    s.start = { s with started := some (s.started.getD s.border) } := by
  obtain ⟨hr, hp⟩ := h
  simp [State.start, State.borderRead, hr, hp]

theorem State.start_idle {s : State} (h : s.pending = none) : s.start = s := by
  simp [State.start, h]

/-- Settles O5: the engine's turn and the start, each with a command pending and with none. -/
theorem stepRunsTheDecodedCommand : Obligations.StepRunsTheDecodedCommand := by
  unfold Obligations.StepRunsTheDecodedCommand
  refine ⟨fun s rest hnext => ⟨fun w i hready hi => ?_, fun hidle => ?_⟩,
    fun s rest hstart => ⟨fun w hready => ?_, fun hidle => ?_⟩⟩
  · exact step_engineNext_command hnext hready hi
  · exact (step_engineNext hnext).trans (engineTurn_idle hidle)
  · exact (step_start hstart).trans (congrArg _ (State.start_ready (s := { s with inputs := rest }) hready))
  · exact (step_start hstart).trans (congrArg _ (State.start_idle hidle))

/-! ### What each command can write -/

/-- `u` differs from `s` only in what the command `i` may write by its rule (its destination buffer, the codewords, the
matrix, its cells, the penalties, RESULT), in the fault report and in the completion. -/
structure Frame (i : Instr) (s u : State) : Prop where
  polys : ∀ k : Fin 4, i.polyDestination ≠ some k.val → u.polys.get k = s.polys.get k
  codewords : i.writesCodewords = false → u.cw = s.cw
  matrix : i.startsMatrix = false → u.mvalid = s.mvalid ∧ u.ver = s.ver ∧ u.size = s.size
  cells : i.startsMatrix = false → i.fillsCells = false → u.mat = s.mat
  penalties : i.writesPenalties = false →
    u.pent = s.pent ∧ u.pen1 = s.pen1 ∧ u.pen2 = s.pen2 ∧ u.pen3 = s.pen3 ∧ u.pen4 = s.pen4
  result : i.keepsResult = true → u.result = s.result

section
variable {i : Instr} {s u : State}

theorem Frame.refl : Frame i s s :=
  ⟨fun _ _ => rfl, fun _ => rfl, fun _ => ⟨rfl, rfl, rfl⟩, fun _ _ => rfl, fun _ => ⟨rfl, rfl, rfl, rfl, rfl⟩, fun _ => rfl⟩

/-! A write stays in the frame of the commands that may make it. -/

theorem Frame.setResult (h : Frame i s u) (hi : i.keepsResult = false) (v : Nat) : Frame i s (u.setResult v) :=
  { h with result := fun hkeeps => absurd (hi.symm.trans hkeeps) Bool.false_ne_true }

theorem Frame.setPoly (h : Frame i s u) {k : Fin 4} (hi : i.polyDestination = some k.val) (l : List Byte) :
    Frame i s (u.setPoly k l) :=
  { h with polys := fun j hj =>
      have hne : j ≠ k := fun hjk => hj (hjk ▸ hi)
      (PolyBuffers.get_set_of_ne _ l hne).trans (h.polys j hj) }

theorem Frame.setCw (h : Frame i s u) (hi : i.writesCodewords = true) (l : List Byte) : Frame i s (u.setCw l) :=
  { h with codewords := fun hno => absurd (hno.symm.trans hi) Bool.false_ne_true }

theorem Frame.startMatrix (h : Frame i s u) (hi : i.startsMatrix = true) (v : Nat) (g : Grid) :
    Frame i s (u.startMatrix v g) :=
  { h with
    matrix := fun hno => absurd (hno.symm.trans hi) Bool.false_ne_true
    cells := fun hno _ => absurd (hno.symm.trans hi) Bool.false_ne_true }

theorem Frame.setMat (h : Frame i s u) (hi : i.fillsCells = true) (g : Grid) : Frame i s (u.setMat g) :=
  { h with cells := fun _ hno => absurd (hno.symm.trans hi) Bool.false_ne_true }

theorem Frame.setScore (h : Frame i s u) (hi : i.writesPenalties = true) (q : Score) : Frame i s (u.setScore q) :=
  { h with penalties := fun hno => absurd (hno.symm.trans hi) Bool.false_ne_true }

/-! A computation of a command, and its completion. -/

/-- Whatever the check answers without a fault is in the frame of the command. -/
def Framed (i : Instr) (s : State) (r : Check State) : Prop :=
  ∀ u, r = .ok u → Frame i s u

/-- Where the outcome is a next state, that state is in the frame of the command. -/
def Frames (i : Instr) (s : State) (o : Host.Outcome State Fault Refusal) : Prop :=
  ∀ t, o = .next t → Frame i s t

theorem Framed.ok (h : Frame i s u) : Framed i s (.ok u) := by
  rintro _ ⟨⟩
  exact h

theorem Framed.bind {α : Type} {x : Check α} {f : α → Check State} (h : ∀ a, Framed i s (f a)) :
    Framed i s (x >>= f) := by
  intro u hu
  obtain ⟨a, -, hf⟩ := check_bind_eq_ok.mp hu
  exact h a u hf

/-- A buffer field that passes its check names the buffer of its own number. -/
theorem Framed.buffer {d : Nat} {f : Fin 4 → Check State} (h : ∀ k : Fin 4, d = k.val → Framed i s (f k)) :
    Framed i s (bufferIndex d >>= f) := by
  intro u hu
  obtain ⟨k, hk, hf⟩ := check_bind_eq_ok.mp hu
  exact h k (bufferIndex_eq_ok.mp hk) u hf

/-- The completion and the fault report are outside what the frame names. -/
theorem Framed.finish {r : Check State} (h : Framed i s r) : Frames i s (finish s r) := by
  intro t ht
  obtain ⟨u, hr, rfl⟩ | ⟨c, -, rfl⟩ := finish_cases ht
  · exact { h u hr with }
  · exact { Frame.refl with }

end

/-! The computations that end in one write and RESULT. -/

section
variable {i : Instr} {s : State} {v : Nat}

theorem Framed.result (hres : i.keepsResult = false) : Framed i s (.ok (s.setResult v)) :=
  .ok (Frame.refl.setResult hres v)

theorem Framed.poly {d : Nat} {k : Fin 4} {l : List Byte} (hi : i.polyDestination = some d) (hd : d = k.val)
    (hres : i.keepsResult = false) : Framed i s (.ok ((s.setPoly k l).setResult v)) :=
  .ok ((Frame.refl.setPoly (hd ▸ hi) l).setResult hres v)

theorem Framed.codewords {l : List Byte} (hi : i.writesCodewords = true) (hres : i.keepsResult = false) :
    Framed i s (.ok ((s.setCw l).setResult v)) :=
  .ok ((Frame.refl.setCw hi l).setResult hres v)

theorem Framed.cells {g : Grid} (hi : i.fillsCells = true) (hres : i.keepsResult = false) :
    Framed i s (.ok ((s.setMat g).setResult v)) :=
  .ok ((Frame.refl.setMat hi g).setResult hres v)

theorem Framed.starter {ver : Nat} {g : Grid} (hi : i.startsMatrix = true) (hres : i.keepsResult = false) :
    Framed i s (.ok ((s.startMatrix ver g).setResult v)) :=
  .ok ((Frame.refl.startMatrix hi ver g).setResult hres v)

theorem Framed.score {q : Score} (hi : i.writesPenalties = true) (hres : i.keepsResult = false) :
    Framed i s (.ok ((s.setScore q).setResult v)) :=
  .ok ((Frame.refl.setScore hi q).setResult hres v)

theorem Framed.scoredStarter {ver : Nat} {g : Grid} {q : Score} (hi : i.startsMatrix = true)
    (hpen : i.writesPenalties = true) (hres : i.keepsResult = false) :
    Framed i s (.ok (((s.startMatrix ver g).setScore q).setResult v)) :=
  .ok (((Frame.refl.startMatrix hi ver g).setScore hpen q).setResult hres v)

end

/-- Every command stays in its frame. The cases go by the number of checks and computations that the command makes, then
by what it writes. -/
theorem exec_frames (i : Instr) (s : State) : Frames i s (exec i s) := by
  cases i with
  | nop => exact Framed.finish (.ok .refl)
  | gexp | clen => exact Framed.finish (.result rfl)
  | glog | gmul | plen | crd => exact Framed.finish (.bind fun _ => .result rfl)
  | prd | mrd | mbsize => exact Framed.finish (.bind fun _ => .bind fun _ => .result rfl)
  | mctx | mbrd => exact Framed.finish (.bind fun _ => .bind fun _ => .bind fun _ => .result rfl)
  | pclr d => exact Framed.finish (.buffer fun _ hd => .ok (Frame.refl.setPoly (i := .pclr d) (congrArg some hd) _))
  | ppush | pgen => exact Framed.finish (.buffer fun _ hd => .bind fun _ => .poly rfl hd rfl)
  | pnorm | rsec => exact Framed.finish (.buffer fun _ hd => .bind fun _ => .bind fun _ => .poly rfl hd rfl)
  | pmul | pmod =>
    exact Framed.finish (.buffer fun _ hd => .bind fun _ => .bind fun _ => .bind fun _ => .bind fun _ =>
      .bind fun _ => .poly rfl hd rfl)
  | cclr => exact Framed.finish (.ok (Frame.refl.setCw rfl _))
  | cpush => exact Framed.finish (.bind fun _ => .codewords rfl rfl)
  | cpushp => exact Framed.finish (.bind fun _ => .bind fun _ => .codewords rfl rfl)
  | mfmt | mdark | mdata => exact Framed.finish (.bind fun _ => .cells rfl rfl)
  | mveri =>
    refine Framed.finish (.bind fun _ => ?_)
    split
    · exact .result rfl
    · exact .cells rfl rfl
  | mskel | mbuild => exact Framed.finish (.bind fun _ => .starter rfl rfl)
  | mpen => exact Framed.finish (.bind fun _ => .bind fun _ => .score rfl rfl)
  | msel | mauto => exact Framed.finish (.bind fun _ => .scoredStarter rfl rfl rfl)

/-- Settles O22: the clauses are the fields of the command's frame. -/
theorem commandsWriteOnlyTheirState : Obligations.CommandsWriteOnlyTheirState := by
  unfold Obligations.CommandsWriteOnlyTheirState
  intro i s t h
  obtain ⟨hpolys, hcw, hmatrix, hcells, hpen, hresult⟩ := exec_frames i s t h
  exact ⟨hpolys, hcw, hmatrix, hcells, hpen, hresult⟩

end Sys2Proof.Machine
end

section
/-! PROOFS. Liveness (R141, R394): each step takes one event, a pending command waits unchanged for the engine's turn, and
the engine's turn empties the slot. -/

namespace Sys2Proof.Machine

/-! ### The engine's turn empties the slot -/

/-- A command leaves the events to come alone: they are part of the surroundings, which it does not write. -/
theorem exec_inputs {i : Instr} {s t : State} (h : exec i s = .next t) : t.inputs = s.inputs := by
  have hsame : exec i s = .next (t.surrounded s.inputs s.busData) := exec_surrounded i s t h
  have ht : t = t.surrounded s.inputs s.busData := Host.Outcome.next.inj (h.symm.trans hsame)
  calc t.inputs = (t.surrounded s.inputs s.busData).inputs := congrArg State.inputs ht
    _ = s.inputs := rfl

theorem executeWord_frame {w : Word} {s t : State} (h : executeWord w s = .next t) :
    t.pending = none ∧ t.inputs = s.inputs := by
  obtain ⟨-, rfl⟩ | ⟨i, -, hi⟩ := executeWord_cases h
  · exact ⟨rfl, rfl⟩
  · exact ⟨(exec_frame hi).1, exec_inputs hi⟩

theorem executeWord_answers (w : Word) (s : State) : ∃ t, executeWord w s = .next t := by
  cases hd : decode w with
  | error e => exact ⟨_, executeWord_error hd s⟩
  | ok i =>
    obtain ⟨r, hr⟩ := exec_is_completion i s
    obtain ⟨t, ht⟩ := finish_answers s r
    exact ⟨t, (executeWord_ok hd s).trans (hr.trans ht)⟩

/-- No command is pending while the reset input is asserted (R380), so the engine, idle in that time, leaves none. -/
def State.IdleWhileHeld (s : State) : Prop :=
  s.resetLine = true → s.pending = none

theorem State.resetHolds.idleWhileHeld {s : State} (h : s.resetHolds) : s.IdleWhileHeld :=
  fun hr => congrArg State.pending (h hr)

theorem State.idleWhileHeld_of_released {s : State} (h : s.resetLine = false) : s.IdleWhileHeld :=
  fun hr => absurd (h.symm.trans hr) Bool.false_ne_true

theorem engineTurn_drains {s : State} (h : s.IdleWhileHeld) :
    ∃ t, engineTurn s = .next t ∧ t.pending = none ∧ t.inputs = s.inputs := by
  cases hp : s.pending with
  | none => exact ⟨s, engineTurn_idle hp, hp, rfl⟩
  | some w =>
    have hr : s.resetLine = false := by
      refine Bool.eq_false_iff.mpr fun hr => ?_
      cases hp.symm.trans (h hr)
    obtain ⟨t, ht⟩ := executeWord_answers w s
    exact ⟨t, (engineTurn_ready ⟨hr, hp⟩).trans ht, executeWord_frame ht⟩

theorem step_engineNext_drains {s : State} {rest : List Input} (h : s.IdleWhileHeld) (hnext : s.engineNext rest) :
    ∃ t, step s = .next t ∧ t.pending = none ∧ t.inputs = rest := by
  obtain ⟨t, ht, hdrained⟩ := engineTurn_drains (s := { s with inputs := rest }) h
  exact ⟨t, (step_engineNext hnext).trans ht, hdrained⟩

/-! ### A step takes one event -/

theorem step_resetPin {s : State} {b : Bool} {rest : List Input} (h : s.inputs = .resetPin b :: rest) :
    step s = .next (State.driveReset { s with inputs := rest } b) := by
  simp only [step, advance, h, perform]

/-- An access drives neither the events to come nor the reset input. -/
theorem State.hostAccess_surroundings (s : State) (a : Access) :
    (s.hostAccess a).inputs = s.inputs ∧ (s.hostAccess a).resetLine = s.resetLine := by
  obtain ⟨d, hread⟩ | hnothing | ⟨-, w, hissue | hstatus | hctrl⟩ := s.hostAccess_cases a
  · rw [hread]; exact ⟨rfl, rfl⟩
  · rw [hnothing]; exact ⟨rfl, rfl⟩
  · rw [hissue]
    cases hp : s.pending with
    | none => rw [s.issue_idle w hp]; exact ⟨rfl, rfl⟩
    | some v => rw [s.issue_busy v w hp]; exact ⟨rfl, rfl⟩
  · rw [hstatus]; exact ⟨rfl, rfl⟩
  · rw [hctrl]
    cases hw : w.getLsbD 1 with
    | false => rw [s.writeCtrl_plain w hw]; exact ⟨rfl, rfl⟩
    | true => rw [s.writeCtrl_softReset w hw]; exact ⟨rfl, rfl⟩

theorem State.driveReset_inputs (s : State) (b : Bool) : (s.driveReset b).inputs = s.inputs := by
  obtain hreset | ⟨hkeep, -, -⟩ := s.driveReset_cases b
  · rw [hreset]; rfl
  · rw [hkeep]

theorem State.IdleWhileHeld.hostAccess {s : State} (h : s.IdleWhileHeld) (a : Access) :
    (s.hostAccess a).IdleWhileHeld := by
  obtain ⟨d, hread⟩ | hnothing | ⟨hr, -⟩ := s.hostAccess_cases a
  · rw [hread]; exact h
  · rwa [hnothing]
  · exact State.idleWhileHeld_of_released ((s.hostAccess_surroundings a).2.trans hr)

theorem State.IdleWhileHeld.driveReset {s : State} (h : s.IdleWhileHeld) (b : Bool) : (s.driveReset b).IdleWhileHeld := by
  obtain hreset | ⟨hkeep, -, -⟩ := s.driveReset_cases b
  · rw [hreset]; exact fun _ => rfl
  · rwa [hkeep]

theorem State.IdleWhileHeld.start {s : State} (h : s.IdleWhileHeld) : s.start.IdleWhileHeld := by
  rw [s.start_frame]
  exact h

/-- Every step answers, with one event less; and when no event is left, with an empty slot. -/
theorem step_drains {s : State} (h : s.IdleWhileHeld) :
    ∃ t, step s = .next t ∧ t.IdleWhileHeld ∧ t.inputs = s.inputs.tail ∧ (s.inputs = [] → t.pending = none) := by
  cases hin : s.inputs with
  | nil =>
    obtain ⟨t, ht, hp, htail⟩ := step_engineNext_drains h (.inl ⟨hin, rfl⟩)
    exact ⟨t, ht, fun _ => hp, htail, fun _ => hp⟩
  | cons e rest =>
    have hrest : State.IdleWhileHeld { s with inputs := rest } := h
    cases e with
    | access a => exact ⟨_, step_access hin, hrest.hostAccess a, (State.hostAccess_surroundings _ a).1, nofun⟩
    | start => exact ⟨_, step_start hin, hrest.start, congrArg State.inputs (State.start_frame _), nofun⟩
    | engine =>
      obtain ⟨t, ht, hp, htail⟩ := step_engineNext_drains h (.inr hin)
      exact ⟨t, ht, fun _ => hp, htail, nofun⟩
    | resetPin b => exact ⟨_, step_resetPin hin, hrest.driveReset b, State.driveReset_inputs _ b, nofun⟩

/-- The events left and one step more empty the slot. -/
theorem run_drains {s : State} (h : s.IdleWhileHeld) :
    ∃ t, Host.Core.run core (s.inputs.length + 1) s = .next t ∧ t.pending = none := by
  induction hin : s.inputs generalizing s with
  | nil =>
    obtain ⟨t, ht, -, -, hp⟩ := step_drains h
    exact ⟨t, run_succ ht 0, hp hin⟩
  | cons e rest ih =>
    obtain ⟨t, ht, hidle, htail, -⟩ := step_drains h
    obtain ⟨u, hu, hp⟩ := ih hidle (htail.trans (congrArg List.tail hin))
    exact ⟨u, (run_succ ht _).trans hu, hp⟩

/-! ### A pending command waits unchanged -/

/-- `u` gives a pending command what `s` gave it: the buffers, the matrix, RESULT, the build, and the BORDER that it has read
where it has started. -/
structure SameForCommand (s u : State) : Prop where
  polys : u.polys = s.polys
  codewords : u.cw = s.cw
  mvalid : u.mvalid = s.mvalid
  ver : u.ver = s.ver
  size : u.size = s.size
  mat : u.mat = s.mat
  cfg : u.cfg = s.cfg
  result : u.result = s.result
  started : s.started.isSome = true → u.started = s.started

theorem SameForCommand.refl (s : State) : SameForCommand s s :=
  ⟨rfl, rfl, rfl, rfl, rfl, rfl, rfl, rfl, fun _ => rfl⟩

theorem SameForCommand.trans {s t u : State} (h : SameForCommand s t) (h' : SameForCommand t u) : SameForCommand s u where
  polys := h'.polys.trans h.polys
  codewords := h'.codewords.trans h.codewords
  mvalid := h'.mvalid.trans h.mvalid
  ver := h'.ver.trans h.ver
  size := h'.size.trans h.size
  mat := h'.mat.trans h.mat
  cfg := h'.cfg.trans h.cfg
  result := h'.result.trans h.result
  started := fun hs => (h'.started (h.started hs ▸ hs)).trans (h.started hs)

/-- An access that is no soft reset leaves the command pending and its operands as they were. -/
theorem State.hostAccess_waits {s : State} {w : Word} {a : Access} (hready : s.ready w)
    (ha : Input.resets s.cfg.base (.access a) = false) :
    (s.hostAccess a).ready w ∧ SameForCommand s (s.hostAccess a) := by
  obtain ⟨hr, hp⟩ := hready
  obtain ⟨hpend, hline, -, hpolys, hcw, hmvalid, hver, hsize, hmat, hcfg, hresult⟩ := State.hostAccess_keeps ha
  obtain ⟨hp', hstarted⟩ := hpend w hp
  exact ⟨⟨hline.trans hr, hp'⟩, hpolys, hcw, hmvalid, hver, hsize, hmat, hcfg, hresult, fun _ => hstarted⟩

/-- A start leaves the command pending, and a BORDER that was read before stays. -/
theorem State.start_waits {s : State} {w : Word} (hready : s.ready w) : s.start.ready w ∧ SameForCommand s s.start := by
  rw [State.start_ready hready]
  refine ⟨hready, { SameForCommand.refl s with started := fun hs => ?_ }⟩
  obtain ⟨b, hb⟩ := Option.isSome_iff_exists.mp hs
  simp [hb]

/-- Within `m` steps the engine's turn comes, with `w` still pending and all that its command reads but CTRL.BORDER as it
is in `s`. -/
def State.ReachesTurn (s : State) (w : Word) (m : Nat) : Prop :=
  ∃ (n : Nat) (u : State) (rest : List Input), n ≤ m ∧ Host.Core.run core n s = .next u ∧
    u.ready w ∧ u.engineNext rest ∧ SameForCommand s u

/-- The engine's turn is next. -/
theorem State.ReachesTurn.now {s : State} {w : Word} {rest : List Input} (hready : s.ready w) (hnext : s.engineNext rest)
    (m : Nat) : s.ReachesTurn w m :=
  ⟨0, s, rest, Nat.zero_le m, rfl, hready, hnext, .refl s⟩

/-- A step that leaves the command waiting comes before the others. -/
theorem State.ReachesTurn.later {s t : State} {w : Word} {m : Nat} (ht : step s = .next t) (hsame : SameForCommand s t)
    (h : t.ReachesTurn w m) : s.ReachesTurn w (m + 1) := by
  obtain ⟨n, u, rest, hn, hrun, hready, hnext, hsame'⟩ := h
  exact ⟨n + 1, u, rest, Nat.succ_le_succ hn, (run_succ ht n).trans hrun, hready, hnext, hsame.trans hsame'⟩

/-- Where no event resets the block, the engine's turn comes within the events left and finds the command waiting. -/
theorem State.ready.reachesTurn {s : State} {w : Word} (hready : s.ready w)
    (hevents : ∀ e ∈ s.inputs, e.resets s.cfg.base = false) : s.ReachesTurn w s.inputs.length := by
  induction hin : s.inputs generalizing s with
  | nil => exact .now hready (.inl ⟨hin, rfl⟩) _
  | cons e rest ih =>
    rw [hin, List.forall_mem_cons] at hevents
    obtain ⟨he, hrest⟩ := hevents
    have hready' : State.ready { s with inputs := rest } w := hready
    have hlater : ∀ t : State, step s = .next t → t.ready w → SameForCommand s t → t.inputs = rest →
        s.ReachesTurn w (rest.length + 1) := fun t ht htready hsame htail =>
      .later ht hsame (ih htready (by rw [htail, hsame.cfg]; exact hrest) htail)
    cases e with
    | access a =>
      obtain ⟨htready, hsame⟩ := State.hostAccess_waits hready' he
      exact hlater _ (step_access hin) htready { hsame with } (State.hostAccess_surroundings _ a).1
    | start =>
      obtain ⟨htready, hsame⟩ := State.start_waits hready'
      exact hlater _ (step_start hin) htready { hsame with } (congrArg State.inputs (State.start_frame _))
    | engine => exact .now hready (.inr hin) _
    | resetPin b => cases he

/-- Settles O8: the steps that take the events left empty the slot, and without a reset among them the engine's turn
finds the command as it was. -/
theorem pendingCommandIsExecutedInTime : Obligations.PendingCommandIsExecutedInTime := by
  unfold Obligations.PendingCommandIsExecutedInTime
  refine ⟨fun s h => run_drains h.idleWhileHeld, fun s w hready hevents => ?_⟩
  obtain ⟨n, u, rest, hn, hrun, huready, hnext, hsame⟩ := hready.reachesTurn hevents
  obtain ⟨hpolys, hcw, hmvalid, hver, hsize, hmat, hcfg, hresult, hstarted⟩ := hsame
  exact ⟨n, u, rest, hn, hrun, huready, hnext, hpolys, hcw, hmvalid, hver, hsize, hmat, hcfg, hresult, hstarted,
    fun _ hi => step_engineNext_command hnext huready hi⟩

end Sys2Proof.Machine
end

section
/-! PROOFS. GF(256) and its scalar commands (41_gf_scalar.md R150 to R157): EXP and LOG are inverse to each other, what that
says of `gexp`, `glog` and the product, and the three commands that answer with them. -/

namespace Sys2Proof.Machine

/-! ### The two tables

They are constants of the model, so what R150 and R152 say of them is checked entry by entry. All that follows goes through
these checks. -/

/-- The base of R150's recurrence: the powers of 2 that fit a byte. -/
theorem expEntry_of_lt_eight : ∀ i, i < 8 → expEntry i = 1#8 <<< i := by decide +kernel

/-- R150's recurrence, up to the last index of the table. -/
theorem expEntry_recurrence : ∀ i, i < 256 → 8 ≤ i →
    expEntry i = expEntry (i - 4) ^^^ expEntry (i - 5) ^^^ expEntry (i - 6) ^^^ expEntry (i - 8) := by decide +kernel

/-- LOG is a left inverse of EXP on the exponents. -/
theorem glog_expEntry : ∀ {i : Nat}, i < 255 → glog (expEntry i) = .ok i := by decide +kernel

/-- EXP is a left inverse of LOG on the nonzero bytes, and LOG answers an exponent. -/
theorem expEntry_logEntry :
    ∀ a : Byte, a ≠ 0 → tableEntry logRows a.toNat < 255 ∧ expEntry (tableEntry logRows a.toNat) = a := by decide +kernel

/-! ### Powers and logarithms -/

theorem glog_zero : glog 0 = .error .domain := rfl

theorem glog_of_ne_zero {a : Byte} (h : a ≠ 0) : glog a = .ok (tableEntry logRows a.toNat) :=
  if_neg fun h0 => h (BitVec.eq_of_toNat_eq h0)

theorem gexp_natCast (n : Nat) : gexp n = expEntry (n % 255) := rfl

theorem gexp_natCast_of_lt {i : Nat} (h : i < 255) : gexp i = expEntry i := by
  rw [gexp_natCast, Nat.mod_eq_of_lt h]

/-- The logarithm of a power is its exponent, reduced. -/
theorem glog_gexp (n : Int) : glog (gexp n) = .ok (n % 255).toNat :=
  glog_expEntry (by omega)

/-- A power has a logarithm, so it is not 0. -/
theorem gexp_ne_zero (n : Int) : gexp n ≠ 0 := by
  intro h
  have hlog := glog_gexp n
  rw [h, glog_zero] at hlog
  cases hlog

/-- The logarithm of `a` is the exponent below 255 whose power is `a`. -/
theorem glog_eq_ok_iff {a : Byte} {l : Nat} : glog a = .ok l ↔ l < 255 ∧ gexp l = a := by
  constructor
  · intro h
    have ha : a ≠ 0 := by
      rintro rfl
      cases h
    rw [glog_of_ne_zero ha] at h
    cases h
    obtain ⟨hlt, hexp⟩ := expEntry_logEntry a ha
    exact ⟨hlt, (gexp_natCast_of_lt hlt).trans hexp⟩
  · rintro ⟨hlt, rfl⟩
    rw [gexp_natCast_of_lt hlt, glog_expEntry hlt]

/-- Every nonzero byte has a logarithm. -/
theorem exists_glog_eq_ok {a : Byte} (h : a ≠ 0) : ∃ l, glog a = .ok l :=
  ⟨_, glog_of_ne_zero h⟩

/-! ### The product -/

theorem gfMul_of_glog {a b : Byte} {la lb : Nat} (ha : glog a = .ok la) (hb : glog b = .ok lb) :
    gfMul a b = .ok (gexp ((la : Int) + lb)) := by
  simp only [gfMul, ha, hb, check_ok_bind, check_pure]

theorem gfMul_zero_left (b : Byte) : gfMul 0 b = .error .domain := rfl

theorem gfMul_zero_right (a : Byte) : gfMul a 0 = .error .domain := by
  by_cases ha : a = 0
  · rw [ha, gfMul_zero_left]
  · obtain ⟨la, hla⟩ := exists_glog_eq_ok ha
    simp only [gfMul, hla, check_ok_bind, glog_zero, check_error_bind]

theorem gfMul_comm (a b : Byte) : gfMul a b = gfMul b a := by
  by_cases ha : a = 0
  · rw [ha, gfMul_zero_left, gfMul_zero_right]
  by_cases hb : b = 0
  · rw [hb, gfMul_zero_right, gfMul_zero_left]
  obtain ⟨la, hla⟩ := exists_glog_eq_ok ha
  obtain ⟨lb, hlb⟩ := exists_glog_eq_ok hb
  rw [gfMul_of_glog hla hlb, gfMul_of_glog hlb hla, Int.add_comm]

/-! ### The commands -/

/-- A computation that only answers a number completes with it in RESULT and writes nothing else. -/
theorem finish_result {s : State} {r : Check State} {v : Nat} (h : r = .ok (s.setResult v)) :
    finish s r = .next { s with result := BitVec.ofNat 32 v, pending := none, started := none, done := true } := by
  rw [h]
  rfl

/-- The same for a byte, which RESULT holds zero-extended. -/
theorem finish_resultByte {s : State} {r : Check State} {b : Byte} (h : r = .ok (s.setResult b.toNat)) :
    finish s r = .next { s with result := b.setWidth 32, pending := none, started := none, done := true } := by
  rw [finish_result h, BitVec.ofNat_toNat]

theorem exec_gexp (n : Nat) (s : State) : exec (.gexp n) s = finish s (.ok (s.setResult (gexp n).toNat)) := rfl

theorem exec_glog (a : Byte) (s : State) :
    exec (.glog a) s = finish s (glog a >>= fun l => .ok (s.setResult l)) := rfl

theorem exec_gmul (a b : Byte) (s : State) :
    exec (.gmul a b) s = finish s (gfMul a b >>= fun z => .ok (s.setResult z.toNat)) := rfl

/-- Settles O31: the product goes through the logarithms of its operands, and faults where one of them has none. -/
theorem gmulReturnsTheProduct : Obligations.GmulReturnsTheProduct := by
  unfold Obligations.GmulReturnsTheProduct
  refine ⟨fun a b s ha hb => ?_, fun a b s => ?_, fun a b s w hzero hp => ?_⟩
  · obtain ⟨la, hla⟩ := exists_glog_eq_ok ha
    obtain ⟨lb, hlb⟩ := exists_glog_eq_ok hb
    obtain ⟨hlalt, hlaexp⟩ := glog_eq_ok_iff.mp hla
    obtain ⟨hlblt, hlbexp⟩ := glog_eq_ok_iff.mp hlb
    refine ⟨la, lb, hlalt, hlblt, hlaexp, hlbexp, gexp_ne_zero _, ?_⟩
    rw [exec_gmul, gfMul_of_glog hla hlb]
    exact finish_resultByte rfl
  · rw [exec_gmul, exec_gmul, gfMul_comm]
  · have hdomain : gfMul a b = .error .domain := by
      obtain rfl | rfl := hzero
      · exact gfMul_zero_left b
      · exact gfMul_zero_right a
    rw [exec_gmul, hdomain]
    exact finish_fault hp rfl

/-- Settles O28: the checks of the two tables, with the logarithm of a byte as the index where EXP holds it. -/
theorem galoisTablesFollowTheRules : Obligations.GaloisTablesFollowTheRules := by
  unfold Obligations.GaloisTablesFollowTheRules
  exact ⟨expEntry_of_lt_eight, expEntry_recurrence, fun _ => glog_expEntry,
    fun a ha => ⟨_, expEntry_logEntry a ha⟩, glog_zero⟩

/-- Settles O29: GEXP cannot fault, and a power is never 0. -/
theorem gexpReturnsThePower : Obligations.GexpReturnsThePower := by
  unfold Obligations.GexpReturnsThePower
  intro n s
  refine ⟨gexp n, gexp_natCast n, gexp_ne_zero n, fun hn => ?_, ?_⟩
  · rw [gexp_natCast, hn]
    rfl
  · rw [exec_gexp]
    exact finish_resultByte rfl

/-- Settles O30: GLOG answers the logarithm, which is the exponent whose power is the operand. -/
theorem glogReturnsTheExponent : Obligations.GlogReturnsTheExponent := by
  unfold Obligations.GlogReturnsTheExponent
  refine ⟨fun a s ha => ?_, fun s w hp => ?_⟩
  · obtain ⟨l, hl⟩ := exists_glog_eq_ok ha
    obtain ⟨hlt, hexp⟩ := glog_eq_ok_iff.mp hl
    refine ⟨l, hlt, hexp, ?_⟩
    rw [exec_glog, hl]
    exact finish_result rfl
  · rw [exec_glog, glog_zero]
    exact finish_fault hp rfl

end Sys2Proof.Machine
end

section
/-! PROOFS. The polynomial buffer commands (42_poly_buffer.md R170 to R175): what a trim leaves of a list with leading zeros,
the two answers of construction on a list that is not empty, and the commands on one of the four buffers. -/

namespace Sys2Proof.Machine

/-! ### Trimming leading zeros -/

theorem zeros_succ (k : Nat) : zeros (k + 1) = 0 :: zeros k := rfl

/-- Leading zeros go, as long as something follows them. -/
theorem trim_zeros_append (k : Nat) {l : List Byte} (h : l ≠ []) : trim (zeros k ++ l) = trim l := by
  induction k with
  | zero => rfl
  | succ k ih =>
    have htail : zeros k ++ l ≠ [] := List.append_ne_nil_of_right_ne_nil _ h
    rw [zeros_succ, List.cons_append, trim_cons, if_pos rfl, if_neg htail, ih]

/-- The trim starts at the first nonzero coefficient. -/
theorem trim_zeros_append_cons (k : Nat) {x : Byte} (xs : List Byte) (h : x ≠ 0) :
    trim (zeros k ++ x :: xs) = x :: xs := by
  rw [trim_zeros_append k (List.cons_ne_nil x xs), trim_cons, if_neg h]

/-- Of zeros alone one stays. -/
theorem trim_zeros (k : Nat) : trim (zeros (k + 1)) = [0] := by
  have hlast : zeros (k + 1) = zeros k ++ [0] := List.replicate_succ'
  rw [hlast, trim_zeros_append k (List.cons_ne_nil 0 []), trim_of_normalized rfl]

/-! ### Construction -/

/-- A list that is not empty and whose trim with the shift fits a buffer is constructed. -/
theorem construct_of_le {l : List Byte} {k : Nat} (h : l ≠ []) (hlen : (trim l).length + k ≤ PMAX) :
    construct l k = .ok (trim l ++ zeros k) :=
  construct_eq_ok.mpr ⟨h, rfl, hlen⟩

/-- One whose trim with the shift is longer than a buffer overflows. -/
theorem construct_overflow {l : List Byte} {k : Nat} (h : l ≠ []) (hlen : PMAX < (trim l).length + k) :
    construct l k = .error .overflow := by
  have hne : (l.length != 0) = true := bne_iff_ne.mpr (List.length_pos_iff.mpr h).ne'
  rw [construct, hne, require_true, check_ok_bind]
  refine require_bind_error ?_ _ _
  rw [List.length_append, zeros_length]
  exact Nat.not_le.mpr hlen

/-! ### Checks that pass, and a completion that writes a buffer -/

theorem bufferIndex_val_bind {α : Type} (d : Fin 4) (f : Fin 4 → Check α) : (bufferIndex d.val >>= f) = f d := by
  rw [bufferIndex_eq_ok.mpr rfl, check_ok_bind]

theorem require_bind_of {α : Type} {p : Prop} [Decidable p] (h : p) (c : FaultCode) (f : Unit → Check α) :
    (require (decide p) c >>= f) = f () := by
  rw [decide_eq_true h, require_true, check_ok_bind]

/-- A computation that answers a list for a buffer and a number completes with the two and writes nothing else. -/
theorem finish_poly {s : State} {r : Check State} {k : Fin 4} {l : List Byte} {v : Nat}
    (h : r = .ok ((s.setPoly k l).setResult v)) :
    finish s r = .next { s with
      polys := s.polys.set k l
      result := BitVec.ofNat 32 v
      pending := none
      started := none
      done := true } := by
  rw [h]
  rfl

/-! ### The commands on one of the four buffers -/

section
variable (d a : Fin 4) (s : State)

theorem exec_pclr : exec (.pclr d.val) s = finish s (.ok (s.setPoly d [])) :=
  congrArg (finish s) (bufferIndex_val_bind d _)

theorem exec_ppush (b : Byte) : exec (.ppush d.val b) s =
    finish s (require (decide ((s.polys.get d).length < PMAX)) .overflow >>= fun _ =>
      .ok ((s.setPoly d (s.polys.get d ++ [b])).setResult (s.polys.get d ++ [b]).length)) :=
  congrArg (finish s) (bufferIndex_val_bind d _)

theorem exec_prd (idx : Nat) : exec (.prd d.val idx) s =
    finish s (requireBelow idx (s.polys.get d).length >>= fun _ =>
      .ok (s.setResult ((s.polys.get d).getD idx 0).toNat)) :=
  congrArg (finish s) (bufferIndex_val_bind d _)

theorem exec_plen : exec (.plen d.val) s = finish s (.ok (s.setResult (s.polys.get d).length)) :=
  congrArg (finish s) (bufferIndex_val_bind d _)

theorem exec_pnorm (shift : Nat) : exec (.pnorm d.val a.val shift) s =
    finish s (construct (s.polys.get a) shift >>= fun r => .ok ((s.setPoly d r).setResult r.length)) :=
  congrArg (finish s) ((bufferIndex_val_bind d _).trans (bufferIndex_val_bind a _))

/-- PNORM of a source whose trim `r` fits with the shift. -/
theorem exec_pnorm_fits {shift : Nat} {r : List Byte} (hne : s.polys.get a ≠ []) (htrim : trim (s.polys.get a) = r)
    (hlen : r.length + shift ≤ 256) : exec (.pnorm d.val a.val shift) s = .next { s with
      polys := s.polys.set d (r ++ zeros shift)
      result := BitVec.ofNat 32 (r.length + shift)
      pending := none
      started := none
      done := true } := by
  subst htrim
  rw [exec_pnorm, construct_of_le hne hlen, check_ok_bind, List.length_append, zeros_length]
  exact finish_poly rfl

/-- PNORM of a source whose trim `r` does not fit with the shift. -/
theorem exec_pnorm_overflow {shift : Nat} {r : List Byte} {w : Word} (hne : s.polys.get a ≠ [])
    (htrim : trim (s.polys.get a) = r) (hlen : 256 < r.length + shift) (hp : s.pending = some w) :
    exec (.pnorm d.val a.val shift) s = .next (s.afterFault w 8) := by
  subst htrim
  rw [exec_pnorm, construct_overflow hne hlen]
  exact finish_fault hp rfl

end

/-- Settles O33: the trim of the source, for a nonzero coefficient after zeros and for zeros alone, then whether it fits
with the shift. -/
theorem pnormTrimsAndShifts : Obligations.PnormTrimsAndShifts := by
  unfold Obligations.PnormTrimsAndShifts
  refine ⟨fun d a shift k x xs s hsrc hx => ?_, fun d a shift k s hsrc => ?_, fun d a shift s w hsrc hp => ?_⟩
  · have hne : s.polys.get a ≠ [] := by simp [hsrc]
    have htrim : trim (s.polys.get a) = x :: xs := by rw [hsrc, trim_zeros_append_cons k xs hx]
    exact ⟨exec_pnorm_fits d a s hne htrim, fun hlen _ => exec_pnorm_overflow d a s hne htrim hlen⟩
  · have hne : s.polys.get a ≠ [] := by simp [hsrc, zeros_succ]
    have htrim : trim (s.polys.get a) = [0] := by rw [hsrc, trim_zeros]
    have hlen : shift + 1 = [(0 : Byte)].length + shift := Nat.add_comm shift 1
    refine ⟨fun hfits => ?_, fun hlong _ => exec_pnorm_overflow d a s hne htrim (by omega)⟩
    rw [hlen]
    exact exec_pnorm_fits d a s hne htrim (by omega)
  · rw [exec_pnorm, hsrc, construct_empty]
    exact finish_fault hp rfl

/-- Settles O32: the buffer field passes its check, then the room or the index does. -/
theorem polyBufferCommandsComplete : Obligations.PolyBufferCommandsComplete := by
  unfold Obligations.PolyBufferCommandsComplete
  refine ⟨fun d s => ?_, fun d b s hroom => ?_, fun d idx s hidx => ?_, fun d s => ?_⟩
  · rw [exec_pclr]
    rfl
  · rw [exec_ppush, require_bind_of hroom, List.length_append]
    exact finish_poly rfl
  · rw [exec_prd, requireBelow, require_bind_of hidx, List.getD_eq_getElem _ _ hidx]
    exact finish_resultByte rfl
  · rw [exec_plen]
    exact finish_result rfl

end Sys2Proof.Machine
end

section
/-! PROOFS. Polynomial products (43_poly_arith.md R190 to R192): the product of two bytes, the coefficients of a product by
its first and by its second operand, what the double loop of R191 answers, and the command PMUL. -/

namespace Sys2Proof.Machine

/-! ### The product of two bytes -/

theorem productOf_of_gfMul {x y z : Byte} (h : gfMul x y = .ok z) : productOf x y = z := by
  rw [productOf, h]

@[simp] theorem productOf_zero_left (y : Byte) : productOf 0#8 y = 0#8 := rfl

theorem productOf_comm (x y : Byte) : productOf x y = productOf y x := by
  rw [productOf, gfMul_comm, productOf]

@[simp] theorem productOf_zero_right (x : Byte) : productOf x 0#8 = 0#8 := by
  rw [productOf_comm, productOf_zero_left]

/-- Nonzero bytes have a product, and it is not 0. -/
theorem gfMul_of_ne_zero {x y : Byte} (hx : x ≠ 0) (hy : y ≠ 0) :
    gfMul x y = .ok (productOf x y) ∧ productOf x y ≠ 0 := by
  obtain ⟨lx, hlx⟩ := exists_glog_eq_ok hx
  obtain ⟨ly, hly⟩ := exists_glog_eq_ok hy
  have hmul := gfMul_of_glog hlx hly
  rw [hmul, productOf_of_gfMul hmul]
  exact ⟨rfl, gexp_ne_zero _⟩

/-! ### The coefficients of a product -/

theorem foldl_xor_init (l : List Byte) (x : Byte) :
    l.foldl (fun y z => y ^^^ z) x = x ^^^ l.foldl (fun y z => y ^^^ z) 0 := by
  have h := List.foldl_assoc (op := fun y z : Byte => y ^^^ z) (l := l) (a₁ := x) (a₂ := 0)
  simpa using h

/-- A factor past the end of its list adds nothing, so the sum of R191 needs no bound on the index. -/
theorem boundedTerm_eq (x : Byte) (b : List Byte) (k : Nat) :
    (if k < b.length then productOf x (b.getD k 0) else 0) = productOf x (b.getD k 0) := by
  split
  · rfl
  · rename_i hk
    rw [List.getD_eq_default _ _ (Nat.not_lt.mp hk)]
    exact (productOf_zero_right x).symm

@[simp] theorem coefficientOf_nil_left (b : List Byte) (k : Nat) : coefficientOf [] b k = 0 := rfl

theorem coefficientOf_cons_zero (x : Byte) (xs b : List Byte) :
    coefficientOf (x :: xs) b 0 = productOf x (b.getD 0 0) := by
  have htail : ∀ l : List Nat, (l.map fun _ => (0 : Byte)).foldl (fun y z => y ^^^ z) 0 = 0 := by
    intro l
    induction l with
    | nil => rfl
    | cons i l ih => simpa using ih
  rw [coefficientOf, List.length_cons, List.range_succ_eq_map, List.map_cons, List.foldl_cons, foldl_xor_init,
    List.map_map]
  have hzero := htail (List.range xs.length)
  simp only [Function.comp_def, Nat.le_zero_eq, Nat.succ_ne_zero, false_and, if_false, hzero]
  simpa using boundedTerm_eq x b 0

theorem coefficientOf_cons_succ (x : Byte) (xs b : List Byte) (k : Nat) :
    coefficientOf (x :: xs) b (k + 1) = productOf x (b.getD (k + 1) 0) ^^^ coefficientOf xs b k := by
  rw [coefficientOf, List.length_cons, List.range_succ_eq_map, List.map_cons, List.foldl_cons, foldl_xor_init,
    List.map_map, coefficientOf]
  simp only [Function.comp_def, Nat.succ_eq_add_one, Nat.add_le_add_iff_right, Nat.add_sub_add_right,
    List.getD_cons_succ]
  congr 1
  simpa using boundedTerm_eq x b (k + 1)

@[simp] theorem coefficientOf_nil_right (a : List Byte) (k : Nat) : coefficientOf a [] k = 0 := by
  induction a generalizing k with
  | nil => rfl
  | cons x xs ih =>
    cases k with
    | zero => simp [coefficientOf_cons_zero]
    | succ k => simp [coefficientOf_cons_succ, ih]

theorem coefficientOf_cons_right_zero (a : List Byte) (y : Byte) (ys : List Byte) :
    coefficientOf a (y :: ys) 0 = productOf (a.getD 0 0) y := by
  cases a <;> simp [coefficientOf_cons_zero]

theorem coefficientOf_cons_right_succ (a : List Byte) (y : Byte) (ys : List Byte) (k : Nat) :
    coefficientOf a (y :: ys) (k + 1) = productOf (a.getD (k + 1) 0) y ^^^ coefficientOf a ys k := by
  induction a generalizing k with
  | nil => simp
  | cons x xs ih =>
    cases k with
    | zero => simp [coefficientOf_cons_succ, coefficientOf_cons_right_zero, coefficientOf_cons_zero, BitVec.xor_comm]
    | succ k =>
      simp only [coefficientOf_cons_succ, ih, List.getD_cons_succ]
      ac_rfl

theorem coefficientOf_comm (a b : List Byte) (k : Nat) : coefficientOf a b k = coefficientOf b a k := by
  induction a generalizing k with
  | nil => simp
  | cons x xs ih =>
    cases k with
    | zero => rw [coefficientOf_cons_zero, coefficientOf_cons_right_zero, productOf_comm]
    | succ k => rw [coefficientOf_cons_succ, coefficientOf_cons_right_succ, productOf_comm, ih]

/-! ### The double loop of R191 -/

theorem scale_of_zero_notMem {x : Byte} {b : List Byte} (hx : x ≠ 0) (hb : 0 ∉ b) :
    scale x b = .ok (b.map (productOf x)) := by
  induction b with
  | nil => rfl
  | cons y ys ih =>
    obtain ⟨hy, hys⟩ := List.ne_and_not_mem_of_not_mem_cons hb
    rw [scale, (gfMul_of_ne_zero hx hy.symm).1, check_ok_bind, ih hys]
    rfl

/-- A row with a zero factor faults at its first product by a zero. -/
theorem scale_domain {x : Byte} {b : List Byte} (h : (x = 0 ∧ b ≠ []) ∨ 0 ∈ b) : scale x b = .error .domain := by
  induction b with
  | nil => simp at h
  | cons y ys ih =>
    by_cases hx : x = 0
    · rw [hx, scale, gfMul_zero_left, check_error_bind]
    by_cases hy : y = 0
    · rw [hy, scale, gfMul_zero_right, check_error_bind]
    have hys : 0 ∈ ys := List.mem_of_ne_of_mem (Ne.symm hy) (h.resolve_left fun h => hx h.1)
    rw [scale, (gfMul_of_ne_zero hx hy).1, check_ok_bind, ih (.inr hys), check_error_bind]

theorem xorLists_getD {a b : List Byte} (h : a.length = b.length) (k : Nat) :
    (xorLists a b).getD k 0 = a.getD k 0 ^^^ b.getD k 0 := by
  unfold xorLists
  induction a generalizing b k with
  | nil =>
    rw [List.eq_nil_of_length_eq_zero h.symm]
    exact (BitVec.xor_zero (x := 0#8)).symm
  | cons x xs ih =>
    cases b with
    | nil => cases h
    | cons y ys =>
      cases k with
      | zero => rfl
      | succ k => exact ih (Nat.succ.inj h) k

/-- The zeros after a row stand where a read past its end answers 0 too. -/
theorem getD_append_zeros (l : List Byte) (n k : Nat) : (l ++ zeros n).getD k 0 = l.getD k 0 := by
  by_cases hk : k < l.length
  · rw [List.getD_append _ _ _ _ hk]
  · have hk' := Nat.not_lt.mp hk
    rw [List.getD_append_right _ _ _ _ hk', List.getD_eq_default _ _ hk', zeros, List.getD_eq_getElem?_getD,
      List.getElem?_getD_replicate_default_eq]

theorem map_productOf_getD (x : Byte) (b : List Byte) (k : Nat) :
    (b.map (productOf x)).getD k 0 = productOf x (b.getD k 0) := by
  have h := List.getD_map (l := b) (d := 0#8) (n := k) (productOf x)
  rwa [productOf_zero_right] at h

/-- Without a zero coefficient the loop ends, and its accumulator holds the sums of R191. -/
theorem convolve_of_zero_notMem {a b : List Byte} (hne : b ≠ []) (ha : 0 ∉ a) (hb : 0 ∉ b) :
    ∃ r, convolve a b = .ok r ∧ ∀ k, r.getD k 0 = coefficientOf a b k := by
  induction a with
  | nil => exact ⟨_, rfl, fun k => getD_append_zeros [] _ k⟩
  | cons x xs ih =>
    obtain ⟨hx, hxs⟩ := List.ne_and_not_mem_of_not_mem_cons ha
    obtain ⟨rest, hrest, hcoeff⟩ := ih hxs
    refine ⟨xorLists (b.map (productOf x) ++ zeros xs.length) (0 :: rest), ?_, fun k => ?_⟩
    · rw [convolve, scale_of_zero_notMem hx.symm hb, hrest]
      rfl
    · have hlen : (b.map (productOf x) ++ zeros xs.length).length = (0 :: rest).length := by
        have hpos := List.length_pos_iff.mpr hne
        simp only [List.length_append, List.length_map, zeros_length, List.length_cons, convolve_length hne hrest]
        omega
      rw [xorLists_getD hlen, getD_append_zeros, map_productOf_getD]
      cases k with
      | zero => simp [coefficientOf_cons_zero]
      | succ k => rw [coefficientOf_cons_succ, List.getD_cons_succ, hcoeff]

/-- With a zero coefficient in either list the loop meets a product by zero. -/
theorem convolve_domain {a b : List Byte} (hne : b ≠ []) (h : 0 ∈ a ∨ (0 ∈ b ∧ a ≠ [])) :
    convolve a b = .error .domain := by
  induction a with
  | nil => simp at h
  | cons x xs ih =>
    by_cases hrow : x = 0 ∨ 0 ∈ b
    · rw [convolve, scale_domain (hrow.imp_left fun hx => ⟨hx, hne⟩), check_error_bind]
    · obtain ⟨hx, hb⟩ := not_or.mp hrow
      have hxs : 0 ∈ xs := List.mem_of_ne_of_mem (Ne.symm hx) (h.resolve_right fun h => hb h.1)
      rw [convolve, scale_of_zero_notMem hx hb, check_ok_bind, ih (.inl hxs), check_error_bind]

/-! ### The product of two lists -/

theorem normalized_of_getD_zero_ne {l : List Byte} (h : l.getD 0 0 ≠ 0) : normalized l = true := by
  cases l with
  | nil => exact absurd rfl h
  | cons x xs => simpa [normalized] using .inr h

theorem getD_zero_ne_of_zero_notMem {l : List Byte} (hne : l ≠ []) (h : 0 ∉ l) : l.getD 0 0 ≠ 0 := by
  cases l with
  | nil => exact absurd rfl hne
  | cons x xs => exact (List.ne_and_not_mem_of_not_mem_cons h).1.symm

/-- A normalized list that fits a buffer is constructed as it is. -/
theorem construct_of_normalized {l : List Byte} (h : normalized l = true) (hlen : l.length ≤ 256) :
    construct l 0 = .ok l := by
  have htrim := trim_of_normalized h
  have hne : l ≠ [] := htrim ▸ trim_ne_nil l
  rw [construct_of_le hne (by rwa [htrim]), htrim]
  exact congrArg Except.ok (List.append_nil l)

section
variable {a b : List Byte}

theorem pmul_eq (hlen : a.length + b.length - 1 ≤ 256) :
    pmul a b = convolve a b >>= fun num => construct num 0 :=
  require_bind_of hlen _ _

theorem pmul_overflow (hlen : 256 < a.length + b.length - 1) : pmul a b = .error .overflow :=
  require_bind_error (Nat.not_le.mpr hlen) _ _

theorem pmul_domain (ha : a ≠ []) (hb : b ≠ []) (hlen : a.length + b.length - 1 ≤ 256) (h : 0 ∈ a ∨ 0 ∈ b) :
    pmul a b = .error .domain := by
  rw [pmul_eq hlen, convolve_domain hb (h.imp_right fun h => ⟨h, ha⟩), check_error_bind]

/-- The leading coefficient of a product without zero factors is not 0, so construction trims nothing. -/
theorem pmul_of_zero_notMem (ha : a ≠ []) (hb : b ≠ []) (hlen : a.length + b.length - 1 ≤ 256) (ha0 : 0 ∉ a)
    (hb0 : 0 ∉ b) : ∃ r, pmul a b = .ok r ∧ r.length = a.length + b.length - 1 ∧
      ∀ k, r.getD k 0 = coefficientOf a b k := by
  obtain ⟨r, hr, hcoeff⟩ := convolve_of_zero_notMem hb ha0 hb0
  have hrlen := convolve_length hb hr
  have hlead : r.getD 0 0 ≠ 0 := by
    cases a with
    | nil => exact absurd rfl ha
    | cons x xs =>
      rw [hcoeff, coefficientOf_cons_zero]
      exact (gfMul_of_ne_zero (getD_zero_ne_of_zero_notMem ha ha0) (getD_zero_ne_of_zero_notMem hb hb0)).2
  refine ⟨r, ?_, hrlen, hcoeff⟩
  rw [pmul_eq hlen, hr, check_ok_bind, construct_of_normalized (normalized_of_getD_zero_ne hlead) (hrlen ▸ hlen)]

theorem eq_of_getD_eq {r t : List Byte} (hlen : r.length = t.length) (h : ∀ k, r.getD k 0 = t.getD k 0) : r = t := by
  refine List.ext_getElem hlen fun k hr ht => ?_
  have hk := h k
  rwa [List.getD_eq_getElem _ _ hr, List.getD_eq_getElem _ _ ht] at hk

/-- R191: which operands fault is symmetric, and so is each coefficient. -/
theorem pmul_comm (ha : a ≠ []) (hb : b ≠ []) : pmul a b = pmul b a := by
  have hsum : b.length + a.length = a.length + b.length := Nat.add_comm _ _
  by_cases hlen : a.length + b.length - 1 ≤ 256
  · by_cases hzero : 0 ∈ a ∨ 0 ∈ b
    · rw [pmul_domain ha hb hlen hzero, pmul_domain hb ha (by omega) hzero.symm]
    · obtain ⟨ha0, hb0⟩ := not_or.mp hzero
      obtain ⟨r, hr, hrlen, hrcoeff⟩ := pmul_of_zero_notMem ha hb hlen ha0 hb0
      obtain ⟨t, ht, htlen, htcoeff⟩ := pmul_of_zero_notMem hb ha (by omega) hb0 ha0
      have hrt : r = t := eq_of_getD_eq (by omega) fun k => by rw [hrcoeff, htcoeff, coefficientOf_comm]
      rw [hr, ht, hrt]
  · rw [pmul_overflow (by omega), pmul_overflow (by omega)]

end

/-! ### Polynomial operands -/

theorem State.operand_empty {s : State} {k : Fin 4} (h : s.polys.get k = []) : s.operand k = .error .empty := by
  rw [State.operand, State.poly, h, construct_empty]

theorem State.operand_of_le {s : State} {k : Fin 4} (h : s.polys.get k ≠ [])
    (hlen : (trim (s.polys.get k)).length ≤ 256) : s.operand k = .ok (trim (s.polys.get k)) :=
  (construct_of_le h hlen).trans (congrArg Except.ok (List.append_nil _))

theorem State.polysBounded.get_length_le {s : State} (h : s.polysBounded) (k : Fin 4) :
    (s.polys.get k).length ≤ 256 := by
  obtain ⟨h0, h1, h2, h3⟩ := h
  match k with
  | 0 => exact h0
  | 1 => exact h1
  | 2 => exact h2
  | 3 => exact h3

theorem State.polysBounded.trim_length_le {s : State} (h : s.polysBounded) {k : Fin 4} (hne : s.polys.get k ≠ []) :
    (trim (s.polys.get k)).length ≤ 256 :=
  (Machine.trim_length_le hne).trans (h.get_length_le k)

theorem State.polysBounded.operand_eq {s : State} (h : s.polysBounded) {k : Fin 4} (hne : s.polys.get k ≠ []) :
    s.operand k = .ok (trim (s.polys.get k)) :=
  State.operand_of_le hne (h.trim_length_le hne)

/-- What PMUL and PMOD share (R190, R192, R195): the operands `a` and `b`, `f` of the two, the result to buffer `d` and its
length to RESULT. -/
def State.combine (f : List Byte → List Byte → Check (List Byte)) (d a b : Fin 4) (s : State) : Check State := do
  let p ← s.operand a
  let q ← s.operand b
  let r ← f p q
  return (s.setPoly d r).setResult r.length

theorem bufferIndex_bind_three {α : Type} (d a b : Fin 4) (f : Fin 4 → Fin 4 → Fin 4 → Check α) :
    (bufferIndex d.val >>= fun d => bufferIndex a.val >>= fun a => bufferIndex b.val >>= f d a) = f d a b := by
  simp only [bufferIndex_val_bind]

theorem exec_pmul (d a b : Fin 4) (s : State) :
    exec (.pmul d.val a.val b.val) s = finish s (s.combine pmul d a b) :=
  congrArg (finish s) (bufferIndex_bind_three d a b _)

theorem exec_pmod (d a b : Fin 4) (s : State) :
    exec (.pmod d.val a.val b.val) s = finish s (s.combine pmod d a b) :=
  congrArg (finish s) (bufferIndex_bind_three d a b _)

section
variable {f : List Byte → List Byte → Check (List Byte)} {s : State} {p q : List Byte} (d : Fin 4) {a b : Fin 4}

theorem State.combine_of_operands (hp : s.operand a = .ok p) (hq : s.operand b = .ok q) :
    s.combine f d a b = f p q >>= fun r => .ok ((s.setPoly d r).setResult r.length) := by
  simp only [State.combine, hp, hq, check_ok_bind, check_pure]

/-- Both operands stand, so an empty buffer is the only fault before `f`. -/
theorem State.polysBounded.combine_empty (hs : s.polysBounded) (h : s.polys.get a = [] ∨ s.polys.get b = []) :
    s.combine f d a b = .error .empty := by
  by_cases ha : s.polys.get a = []
  · rw [State.combine, State.operand_empty ha, check_error_bind]
  · rw [State.combine, hs.operand_eq ha, check_ok_bind, State.operand_empty (h.resolve_left ha), check_error_bind]

theorem finish_combine {r : List Byte} (hp : s.operand a = .ok p) (hq : s.operand b = .ok q) (hr : f p q = .ok r) :
    finish s (s.combine f d a b) = .next { s with
      polys := s.polys.set d r
      result := BitVec.ofNat 32 r.length
      pending := none
      started := none
      done := true } := by
  rw [State.combine_of_operands d hp hq, hr]
  exact finish_poly rfl

theorem finish_combine_fault {c : FaultCode} {w : Word} (hw : s.pending = some w) (hp : s.operand a = .ok p)
    (hq : s.operand b = .ok q) (hc : f p q = .error c) :
    finish s (s.combine f d a b) = .next (s.afterFault w c.code) := by
  rw [State.combine_of_operands d hp hq, hc]
  exact finish_fault hw rfl

end

/-! ### PMUL -/

theorem exec_pmul_badBuf {d a b : Nat} (s : State) (h : 4 ≤ d ∨ 4 ≤ a ∨ 4 ≤ b) :
    exec (.pmul d a b) s = finish s (.error .badBuf) :=
  congrArg (finish s) <| bufferIndex_bind_badBuf <| h.imp_right fun h _ =>
    bufferIndex_bind_badBuf <| h.imp_right fun h _ => bufferIndex_bind_badBuf (.inl h)

theorem State.polysBounded.combine_pmul_comm {s : State} (hs : s.polysBounded) (d a b : Fin 4) :
    s.combine pmul d a b = s.combine pmul d b a := by
  by_cases h : s.polys.get a = [] ∨ s.polys.get b = []
  · rw [hs.combine_empty d h, hs.combine_empty d h.symm]
  · obtain ⟨ha, hb⟩ := not_or.mp h
    rw [State.combine_of_operands d (hs.operand_eq ha) (hs.operand_eq hb),
      State.combine_of_operands d (hs.operand_eq hb) (hs.operand_eq ha), pmul_comm (trim_ne_nil _) (trim_ne_nil _)]

/-- Settles O35: the double loop answers the sums of R191, and their leading one is not 0. -/
theorem pmulConvolves : Obligations.PmulConvolves := by
  unfold Obligations.PmulConvolves
  rintro d a b s p q ha hb rfl rfl hp0 hq0 hlen
  have hp := List.length_pos_iff.mpr (trim_ne_nil (s.polys.get a))
  have hq := List.length_pos_iff.mpr (trim_ne_nil (s.polys.get b))
  obtain ⟨r, hr, hrlen, hcoeff⟩ := pmul_of_zero_notMem (trim_ne_nil _) (trim_ne_nil _) hlen hp0 hq0
  refine ⟨r, hrlen, fun k _ => hcoeff k, ?_⟩
  rw [exec_pmul]
  exact finish_combine d (State.operand_of_le ha (by omega)) (State.operand_of_le hb (by omega)) hr

/-- Settles O36: the operands, then the length of the product, then its factors. -/
theorem pmulFaults : Obligations.PmulFaults := by
  unfold Obligations.PmulFaults
  rintro d a b s w p q hw hs rfl rfl
  rw [exec_pmul]
  refine ⟨fun h => finish_fault hw (hs.combine_empty d h), fun ha hb => ⟨fun hlen => ?_, fun hlen h0 => ?_⟩⟩
  · exact finish_combine_fault d hw (hs.operand_eq ha) (hs.operand_eq hb) (pmul_overflow hlen)
  · exact finish_combine_fault d hw (hs.operand_eq ha) (hs.operand_eq hb)
      (pmul_domain (trim_ne_nil _) (trim_ne_nil _) hlen h0)

/-- Settles O37: a buffer number out of range faults in either order, and so does an empty buffer; the product is
commutative. -/
theorem pmulCommutes : Obligations.PmulCommutes := by
  unfold Obligations.PmulCommutes
  intro d a b s hs
  by_cases hbad : 4 ≤ d ∨ 4 ≤ a ∨ 4 ≤ b
  · rw [exec_pmul_badBuf s hbad, exec_pmul_badBuf s (by omega)]
  · lift d to Fin 4 using by omega
    lift a to Fin 4 using by omega
    lift b to Fin 4 using by omega
    rw [exec_pmul, exec_pmul, hs.combine_pmul_comm]

end Sys2Proof.Machine
end

section
/-! PROOFS. Polynomial remainders (43_poly_arith.md R193 to R195): what one reduction step answers, that every step brings
the loop closer to its end, so that its bound on the steps (log 10) never matters, and the command PMOD. -/

namespace Sys2Proof.Machine

/-! ### Cancelling the leading term -/

theorem glog_eq_logOf {a : Byte} (h : a ≠ 0) : glog a = .ok (logOf a) := by
  obtain ⟨l, hl⟩ := exists_glog_eq_ok h
  rw [logOf, hl]

/-- The list of R193 before its leading zeros go: the divisor, scaled by `gexp(ratio)`, is added to the dividend. -/
def cancelled (ratio : Int) (p q : List Byte) : List Byte :=
  (List.range p.length).map fun k =>
    if k < q.length then p.getD k 0 ^^^ gexp (logOf (q.getD k 0) + ratio) else p.getD k 0

theorem cancelled_nil (ratio : Int) (p : List Byte) : cancelled ratio p [] = p := by
  refine List.ext_getElem (by simp [cancelled]) fun k _ hk => ?_
  simp [cancelled, hk]

theorem cancelled_cons (ratio : Int) (x y : Byte) (xs ys : List Byte) :
    cancelled ratio (x :: xs) (y :: ys) = (x ^^^ gexp (logOf y + ratio)) :: cancelled ratio xs ys := by
  rw [cancelled, List.length_cons (as := xs), List.range_succ_eq_map, List.map_cons, List.map_map]
  simp [cancelled, Function.comp_def]

section
variable {ratio : Int} {p q r : List Byte}

theorem cancel_of_zero_notMem (hlen : q.length ≤ p.length) (hq : 0 ∉ q) :
    cancel ratio p q = .ok (cancelled ratio p q) := by
  induction q generalizing p with
  | nil => rw [cancelled_nil, cancel, check_pure]
  | cons y ys ih =>
    obtain ⟨hy, hys⟩ := List.ne_and_not_mem_of_not_mem_cons hq
    cases p with
    | nil => simp at hlen
    | cons x xs =>
      rw [cancel, glog_eq_logOf hy.symm, check_ok_bind, ih (Nat.le_of_succ_le_succ hlen) hys, check_ok_bind,
        cancelled_cons, check_pure]

theorem cancel_domain (hlen : q.length ≤ p.length) (hq : 0 ∈ q) : cancel ratio p q = .error .domain := by
  induction q generalizing p with
  | nil => simp at hq
  | cons y ys ih =>
    cases p with
    | nil => simp at hlen
    | cons x xs =>
      by_cases hy : y = 0
      · rw [hy, cancel, glog_zero, check_error_bind]
      · have hys : 0 ∈ ys := List.mem_of_ne_of_mem (Ne.symm hy) hq
        rw [cancel, glog_eq_logOf hy, check_ok_bind, ih (Nat.le_of_succ_le_succ hlen) hys, check_error_bind]

/-- With the ratio of the leading terms the sum of the two is 0. -/
theorem cancelled_lead {x y : Byte} (xs ys : List Byte) (hx : x ≠ 0) :
    cancelled ((logOf x : Int) - logOf y) (x :: xs) (y :: ys) =
      0 :: cancelled ((logOf x : Int) - logOf y) xs ys := by
  obtain ⟨-, hexp⟩ := glog_eq_ok_iff.mp (glog_eq_logOf hx)
  rw [cancelled_cons, add_sub_cancel, hexp]
  exact congrArg (· :: _) BitVec.xor_self

/-! ### One reduction step -/

/-- The ratio of R193, between the leading terms. -/
def leadRatio (p q : List Byte) : Int :=
  (logOf (p.headD 0) : Int) - logOf (q.headD 0)

/-- A step that can run: the dividend starts with a term to cancel, and every coefficient of the divisor has a
logarithm. -/
theorem reduceStep_of_zero_notMem (hlen : q.length ≤ p.length) (hp : p.headD 0 ≠ 0) (hne : q ≠ []) (hq : 0 ∉ q) :
    reduceStep p q = construct (cancelled (leadRatio p q) p q) 0 := by
  have hq0 : q.headD 0 ≠ 0 := by
    cases q with
    | nil => exact absurd rfl hne
    | cons y ys => exact (List.ne_and_not_mem_of_not_mem_cons hq).1.symm
  rw [reduceStep, glog_eq_logOf hp, check_ok_bind, glog_eq_logOf hq0, check_ok_bind,
    cancel_of_zero_notMem hlen hq, check_ok_bind, leadRatio]

/-- A step that cannot run: there is no leading term to cancel, or a coefficient of the divisor has no logarithm. -/
theorem reduceStep_domain (hlen : q.length ≤ p.length) (h : p.headD 0 = 0 ∨ q = [] ∨ 0 ∈ q) :
    reduceStep p q = .error .domain := by
  by_cases hp : p.headD 0 = 0
  · rw [reduceStep, hp, glog_zero, check_error_bind]
  by_cases hq : q.headD 0 = 0
  · rw [reduceStep, glog_eq_logOf hp, check_ok_bind, hq, glog_zero, check_error_bind]
  · have hne : q ≠ [] := by
      rintro rfl
      exact hq rfl
    rw [reduceStep, glog_eq_logOf hp, check_ok_bind, glog_eq_logOf hq, check_ok_bind,
      cancel_domain hlen ((h.resolve_left hp).resolve_left hne), check_error_bind]

/-- Everything a step can do: fault DOMAIN, or cancel the leading term and construct again. -/
theorem reduceStep_cases (hlen : q.length ≤ p.length) :
    reduceStep p q = .error .domain ∨
    p.headD 0 ≠ 0 ∧ ∃ rest, rest.length + 1 = p.length ∧ reduceStep p q = construct (0 :: rest) 0 := by
  by_cases h : p.headD 0 = 0 ∨ q = [] ∨ 0 ∈ q
  · exact .inl (reduceStep_domain hlen h)
  · obtain ⟨hp, h⟩ := not_or.mp h
    obtain ⟨hne, hq⟩ := not_or.mp h
    have hstep := reduceStep_of_zero_notMem hlen hp hne hq
    cases p with
    | nil => exact absurd rfl hp
    | cons x xs =>
      cases q with
      | nil => exact absurd rfl hne
      | cons y ys =>
        refine .inr ⟨hp, cancelled (leadRatio (x :: xs) (y :: ys)) xs ys, by simp [cancelled], ?_⟩
        exact hstep.trans (congrArg (construct · 0) (cancelled_lead xs ys hp))

end

/-! ### The loop of R193 -/

/-- A bound on the steps of the loop: each one shortens the dividend or leaves `[0]`, from which the next one faults. -/
def stepsLeft (p : List Byte) : Nat :=
  if p = [0] then 1 else p.length + 1

theorem stepsLeft_pos (p : List Byte) : 0 < stepsLeft p := by
  unfold stepsLeft
  split <;> omega

theorem stepsLeft_le (p : List Byte) : stepsLeft p ≤ p.length + 1 := by
  unfold stepsLeft
  split <;> omega

theorem stepsLeft_trim_zero_cons (rest : List Byte) : stepsLeft (trim (0 :: rest)) < rest.length + 2 := by
  rw [trim_cons, if_pos rfl]
  split
  · exact Nat.lt_of_lt_of_le Nat.one_lt_two (Nat.le_add_left _ _)
  · rename_i hrest
    have := trim_length_le hrest
    have := stepsLeft_le (trim rest)
    omega

section
variable {p q : List Byte}

theorem stepsLeft_of_lead (h : p.headD 0 ≠ 0) : stepsLeft p = p.length + 1 :=
  if_neg fun h0 => h (by rw [h0]; rfl)

/-- A step that answers leaves a normalized list with fewer steps to go. -/
theorem reduceStep_eq_ok {r : List Byte} (hlen : q.length ≤ p.length) (h : reduceStep p q = .ok r) :
    normalized r = true ∧ stepsLeft r < stepsLeft p := by
  obtain hfault | ⟨hp, rest, hrest, hstep⟩ := reduceStep_cases hlen
  · rw [hfault] at h
    cases h
  · rw [hstep] at h
    obtain ⟨-, rfl, -⟩ := construct_eq_ok.mp h
    simp only [zeros, List.replicate_zero, List.append_nil]
    have := stepsLeft_trim_zero_cons rest
    exact ⟨trim_normalized _, by rw [stepsLeft_of_lead hp]; omega⟩

/-- DOMAIN is the only fault of a step on a dividend that fits a buffer. -/
theorem reduceStep_eq_error {c : FaultCode} (hlen : q.length ≤ p.length) (hfits : p.length ≤ 256)
    (h : reduceStep p q = .error c) : c = .domain := by
  obtain hfault | ⟨-, rest, hrest, hstep⟩ := reduceStep_cases hlen
  · rw [hfault] at h
    cases h
    rfl
  · have htrim := trim_length_le (List.cons_ne_nil 0 rest)
    have hroom : (trim (0 :: rest)).length + 0 ≤ PMAX := htrim.trans (hrest.trans_le hfits)
    rw [hstep, construct_of_le (List.cons_ne_nil 0 rest) hroom] at h
    cases h

theorem reduce_of_lt (fuel : Nat) (h : p.length < q.length) : reduce fuel p q = .ok p := by
  cases fuel <;> rw [reduce, if_pos h]

theorem reduce_succ_of_le (n : Nat) (h : q.length ≤ p.length) :
    reduce (n + 1) p q = reduceStep p q >>= fun p' => reduce n p' q := by
  rw [reduce, if_neg (Nat.not_lt.mpr h)]

/-- Every bound that covers the steps left gives the same answer. -/
theorem reduce_eq_reduce (m n : Nat) (hm : stepsLeft p ≤ m) (hn : stepsLeft p ≤ n) : reduce m p q = reduce n p q := by
  induction m generalizing n p with
  | zero => exact absurd hm (Nat.not_le.mpr (stepsLeft_pos p))
  | succ m ih =>
    obtain ⟨n, rfl⟩ := Nat.exists_eq_add_one.mpr (Nat.lt_of_lt_of_le (stepsLeft_pos p) hn)
    by_cases hlen : p.length < q.length
    · rw [reduce_of_lt _ hlen, reduce_of_lt _ hlen]
    · have hle := Nat.not_lt.mp hlen
      rw [reduce_succ_of_le m hle, reduce_succ_of_le n hle]
      cases hstep : reduceStep p q with
      | error c => rfl
      | ok p' =>
        obtain ⟨-, hless⟩ := reduceStep_eq_ok hle hstep
        exact ih n (by omega) (by omega)

/-! ### The remainder

From here on the loop is seen through these equations, without its bound. -/

theorem pmod_of_lt (h : p.length < q.length) : pmod p q = .ok p :=
  reduce_of_lt _ h

theorem pmod_of_step_ok {p' : List Byte} (hlen : q.length ≤ p.length) (h : reduceStep p q = .ok p') :
    pmod p q = pmod p' q := by
  obtain ⟨-, hless⟩ := reduceStep_eq_ok hlen h
  have hle := stepsLeft_le p
  rw [pmod, reduce_succ_of_le _ hlen, h, check_ok_bind, pmod]
  exact reduce_eq_reduce _ _ (by omega) (stepsLeft_le p')

theorem pmod_of_step_error {c : FaultCode} (hlen : q.length ≤ p.length) (h : reduceStep p q = .error c) :
    pmod p q = .error c := by
  rw [pmod, reduce_succ_of_le _ hlen, h, check_error_bind]

end

/-- Induction along the loop: a property of every dividend, if it holds of a dividend whenever it holds of what one step
leaves of it. -/
theorem reduction_induction {q : List Byte} {motive : List Byte → Prop}
    (step : ∀ p, (q.length ≤ p.length → ∀ p', reduceStep p q = .ok p' → motive p') → motive p) (p : List Byte) :
    motive p := by
  induction hk : stepsLeft p using Nat.strong_induction_on generalizing p with
  | h k ih =>
    refine step p fun hlen p' hp' => ?_
    exact ih _ (hk ▸ (reduceStep_eq_ok hlen hp').2) p' rfl

section
variable {p q : List Byte}

/-- R194: a remainder is shorter than its divisor, and normalized if its dividend is. -/
theorem pmod_eq_ok {r : List Byte} (hp : normalized p = true) (h : pmod p q = .ok r) :
    normalized r = true ∧ r.length < q.length := by
  induction p using reduction_induction (q := q) with
  | step p ih =>
    by_cases hlen : p.length < q.length
    · rw [pmod_of_lt hlen] at h
      cases h
      exact ⟨hp, hlen⟩
    · have hle := Nat.not_lt.mp hlen
      cases hstep : reduceStep p q with
      | error c =>
        rw [pmod_of_step_error hle hstep] at h
        cases h
      | ok p' =>
        rw [pmod_of_step_ok hle hstep] at h
        exact ih hle p' hstep (reduceStep_eq_ok hle hstep).1 h

/-- DOMAIN is the only fault of a remainder whose dividend fits a buffer. -/
theorem pmod_eq_error {c : FaultCode} (hfits : p.length ≤ 256) (h : pmod p q = .error c) : c = .domain := by
  induction p using reduction_induction (q := q) with
  | step p ih =>
    by_cases hlen : p.length < q.length
    · rw [pmod_of_lt hlen] at h
      cases h
    · have hle := Nat.not_lt.mp hlen
      cases hstep : reduceStep p q with
      | error e =>
        rw [pmod_of_step_error hle hstep] at h
        cases h
        exact reduceStep_eq_error hle hfits hstep
      | ok p' =>
        rw [pmod_of_step_ok hle hstep] at h
        exact ih hle p' hstep (reduceStep_length_le hstep) h

theorem headD_ne_zero_of_normalized (hp : normalized p = true) (h : p ≠ [0]) : p.headD 0 ≠ 0 := by
  simp only [normalized, Bool.or_eq_true, beq_iff_eq, Bool.and_eq_true, bne_iff_ne] at hp
  exact (hp.resolve_left h).2

/-- One reduction step of R193, where it can run. -/
theorem reduceStep_eq_trim (hlen : q.length ≤ p.length) (hfits : p.length ≤ 256) (hp : p.headD 0 ≠ 0) (hne : q ≠ [])
    (hq : 0 ∉ q) : reduceStep p q = .ok (trim (cancelled (leadRatio p q) p q)) := by
  have hnum : (cancelled (leadRatio p q) p q).length = p.length := by simp [cancelled]
  have hpos := List.length_pos_iff.mpr hne
  have hnum0 : cancelled (leadRatio p q) p q ≠ [] := List.length_pos_iff.mp (by omega)
  have hroom : (trim (cancelled (leadRatio p q) p q)).length + 0 ≤ PMAX :=
    (trim_length_le hnum0).trans (hnum ▸ hfits)
  rw [reduceStep_of_zero_notMem hlen hp hne hq, construct_of_le hnum0 hroom]
  exact congrArg Except.ok (List.append_nil _)

/-- A divisor of length 2 or more without a zero coefficient leaves a remainder: the loop ends before it meets `[0]`. -/
theorem exists_pmod_eq_ok (hp : normalized p = true) (hfits : p.length ≤ 256) (hlen2 : 2 ≤ q.length) (hq : 0 ∉ q) :
    ∃ r, pmod p q = .ok r := by
  induction p using reduction_induction (q := q) with
  | step p ih =>
    by_cases hlen : p.length < q.length
    · exact ⟨p, pmod_of_lt hlen⟩
    · have hle := Nat.not_lt.mp hlen
      have hp0 : p ≠ [0] := by
        rintro rfl
        exact absurd (hlen2.trans hle) (by decide)
      have hne : q ≠ [] := List.length_pos_iff.mp (by omega)
      have hstep := reduceStep_eq_trim hle hfits (headD_ne_zero_of_normalized hp hp0) hne hq
      rw [pmod_of_step_ok hle hstep]
      exact ih hle _ hstep (reduceStep_eq_ok hle hstep).1 (reduceStep_length_le hstep)

/-- A constant divisor: a remainder would be shorter than one coefficient. -/
theorem pmod_domain_of_constant (hp : normalized p = true) (hfits : p.length ≤ 256) (hq : q.length = 1) :
    pmod p q = .error .domain := by
  cases h : pmod p q with
  | error c => rw [pmod_eq_error hfits h]
  | ok r =>
    obtain ⟨hr, hlen⟩ := pmod_eq_ok hp h
    rw [List.eq_nil_of_length_eq_zero (by omega : r.length = 0)] at hr
    cases hr

theorem pmod_domain_of_step (hlen : q.length ≤ p.length) (h : p.headD 0 = 0 ∨ 0 ∈ q) : pmod p q = .error .domain :=
  pmod_of_step_error hlen (reduceStep_domain hlen (h.imp_right .inr))

end

/-! ### PMOD -/

/-- Settles O38: one step of the loop, and what the loop leaves. -/
theorem remainderFollowsTheReduction : Obligations.RemainderFollowsTheReduction := by
  unfold Obligations.RemainderFollowsTheReduction
  refine fun p q hp hq => ⟨pmod_of_lt, ?_, fun r => pmod_eq_ok hp⟩
  rintro hlen hfits hp0 hq0 ratio rfl
  have hne : q ≠ [] := by
    rintro rfl
    cases hq
  exact pmod_of_step_ok hlen (reduceStep_eq_trim hlen hfits (headD_ne_zero_of_normalized hp hp0) hne hq0)

/-- Settles O39: the loop ends by a divisor without a zero coefficient, and does not start on a shorter dividend. -/
theorem pmodCompletes : Obligations.PmodCompletes := by
  unfold Obligations.PmodCompletes
  rintro d a b s p q hs ha hb rfl rfl
  rw [exec_pmod]
  refine ⟨fun hlen2 hq0 => ?_, fun hlen => ?_⟩
  · obtain ⟨r, hr⟩ := exists_pmod_eq_ok (trim_normalized _) (hs.trim_length_le ha) hlen2 hq0
    obtain ⟨hnorm, hlen⟩ := pmod_eq_ok (trim_normalized _) hr
    exact ⟨r, hr, hnorm, hlen, finish_combine d (hs.operand_eq ha) (hs.operand_eq hb) hr⟩
  · exact finish_combine d (hs.operand_eq ha) (hs.operand_eq hb) (pmod_of_lt hlen)

/-- Settles O40: the operands, then a constant divisor, then the first step by a divisor with a zero coefficient. -/
theorem pmodFaults : Obligations.PmodFaults := by
  unfold Obligations.PmodFaults
  rintro d a b s w p q hw hs rfl rfl
  rw [exec_pmod]
  refine ⟨fun h => finish_fault hw (hs.combine_empty d h), fun ha hb h => ?_⟩
  have hdomain : pmod (trim (s.polys.get a)) (trim (s.polys.get b)) = .error .domain := by
    obtain hconst | ⟨hzero, hlen⟩ := h
    · exact pmod_domain_of_constant (trim_normalized _) (hs.trim_length_le ha) hconst
    · exact pmod_domain_of_step hlen (.inr hzero)
  exact finish_combine_fault d hw (hs.operand_eq ha) (hs.operand_eq hb) hdomain

end Sys2Proof.Machine
end

section
/-! PROOFS. Generator polynomials and Reed-Solomon remainders (43_poly_arith.md R196 to R199): the product by a power is
linear, so neighbouring coefficients of `gen(n)` are in a fixed ratio, which says where a coefficient is 0; the commands
PGEN and RSEC. -/

namespace Sys2Proof.Machine

/-! ### The product by a power

The generators need no more of the field than this: the product by a power of 2 is additive, powers add up, and two powers
below 255 agree on no byte but 0. -/

/-- The product of a byte by `gexp(n)`. -/
def mulPow (n : Nat) (x : Byte) : Byte :=
  productOf (gexp n) x

@[simp] theorem mulPow_zero_right (n : Nat) : mulPow n 0#8 = 0#8 :=
  productOf_zero_right _

theorem gexp_congr {m n : Int} (h : m % 255 = n % 255) : gexp m = gexp n := by
  rw [gexp, gexp, h]

/-- A nonzero byte is a power. -/
theorem exists_gexp_eq {x : Byte} (h : x ≠ 0) : ∃ l : Nat, gexp l = x :=
  ⟨logOf x, (glog_eq_ok_iff.mp (glog_eq_logOf h)).2⟩

theorem mulPow_gexp (n l : Nat) : mulPow n (gexp l) = gexp (n + l : Nat) := by
  rw [mulPow, productOf_of_gfMul (gfMul_of_glog (glog_gexp n) (glog_gexp l))]
  exact gexp_congr (by omega)

theorem mulPow_zero_left (x : Byte) : mulPow 0 x = x := by
  by_cases hx : x = 0
  · rw [hx]
    exact mulPow_zero_right 0
  · obtain ⟨l, rfl⟩ := exists_gexp_eq hx
    rw [mulPow_gexp, Nat.zero_add]

theorem mulPow_mulPow (m n : Nat) (x : Byte) : mulPow m (mulPow n x) = mulPow (m + n) x := by
  by_cases hx : x = 0
  · simp [hx]
  · obtain ⟨l, rfl⟩ := exists_gexp_eq hx
    rw [mulPow_gexp, mulPow_gexp, mulPow_gexp, Nat.add_assoc]

/-- The exponents count modulo 255. -/
theorem mulPow_eq_mulPow_iff {m n : Nat} {x : Byte} (hx : x ≠ 0) : mulPow m x = mulPow n x ↔ m % 255 = n % 255 := by
  obtain ⟨l, rfl⟩ := exists_gexp_eq hx
  rw [mulPow_gexp, mulPow_gexp]
  constructor
  · intro h
    have hlog := (glog_gexp (m + l : Nat)).symm.trans ((congrArg glog h).trans (glog_gexp (n + l : Nat)))
    have hmod := Except.ok.inj hlog
    omega
  · intro h
    exact gexp_congr (by omega)

/-- Doubling, as R150's polynomial makes it: a shift, reduced when a bit leaves the byte. -/
def double (x : Byte) : Byte :=
  x <<< 1 ^^^ if x.msb then 0x1D#8 else 0#8

/-- The two tables multiply by `gexp(1)` as doubling does, checked for every byte. -/
theorem mulPow_one : ∀ x, mulPow 1 x = double x := by decide +kernel

theorem double_xor (x y : Byte) : double (x ^^^ y) = double x ^^^ double y := by
  have hreduced : ∀ a b : Bool, (if (a ^^ b) then 0x1D#8 else 0#8) =
      (if a then 0x1D#8 else 0#8) ^^^ if b then 0x1D#8 else 0#8 := by decide
  rw [double, double, double, BitVec.shiftLeft_xor_distrib, BitVec.msb_xor, hreduced]
  ac_rfl

theorem mulPow_xor (n : Nat) (x y : Byte) : mulPow n (x ^^^ y) = mulPow n x ^^^ mulPow n y := by
  induction n with
  | zero => simp only [mulPow_zero_left]
  | succ n ih =>
    have hsucc : ∀ z, mulPow (n + 1) z = double (mulPow n z) := fun z => by
      rw [← mulPow_one, mulPow_mulPow, Nat.add_comm]
    rw [hsucc, hsucc, hsucc, ih, double_xor]

theorem xor_xor_cancel (x y z : Byte) : (x ^^^ y) ^^^ (z ^^^ x) = z ^^^ y :=
  calc (x ^^^ y) ^^^ (z ^^^ x)
    _ = (z ^^^ y) ^^^ (x ^^^ x) := by ac_rfl
    _ = z ^^^ y := by rw [BitVec.xor_self, BitVec.xor_zero]

/-! ### The coefficients of a generator -/

/-- What the coefficients of `gen(n)` satisfy: with `a = gexp(1)`, `(a^(k+1) + 1) * g[k+1] = (a^n + a^k) * g[k]`, past the
end of the list too. -/
structure IsGenerator (n : Nat) (g : List Byte) : Prop where
  length : g.length = n + 1
  lead : g.getD 0 0 = 1
  ratio : ∀ k, mulPow (k + 1) (g.getD (k + 1) 0) ^^^ g.getD (k + 1) 0 = mulPow n (g.getD k 0) ^^^ mulPow k (g.getD k 0)

theorem isGenerator_zero : IsGenerator 0 [1] where
  length := rfl
  lead := rfl
  ratio k := by
    cases k <;> simp

theorem productOf_one_right (x : Byte) : productOf x 1 = x := by
  rw [productOf_comm]
  exact mulPow_zero_left x

/-- A factor `[1, y]` keeps the leading coefficient and adds `y` times each coefficient to the one after it. -/
theorem coefficientOf_factor_zero (g : List Byte) (y : Byte) : coefficientOf g [1, y] 0 = g.getD 0 0 := by
  rw [coefficientOf_cons_right_zero, productOf_one_right]

theorem coefficientOf_factor_succ (g : List Byte) (y : Byte) (k : Nat) :
    coefficientOf g [1, y] (k + 1) = g.getD (k + 1) 0 ^^^ productOf y (g.getD k 0) := by
  have hone : coefficientOf g [y] k = productOf (g.getD k 0) y := by
    cases k with
    | zero => rw [coefficientOf_cons_right_zero]
    | succ k =>
      rw [coefficientOf_cons_right_succ, coefficientOf_nil_right]
      exact BitVec.xor_zero
  rw [coefficientOf_cons_right_succ, productOf_one_right, hone, productOf_comm]

namespace IsGenerator

variable {n : Nat} {g r : List Byte}

/-- The next generator's ratio: with its coefficients `r[k+1] = g[k+1] + a^n * g[k]` both sides come to
`(a^(n+k+1) + a^k) * g[k]`. -/
theorem ratio_succ (h : IsGenerator n g) (hr0 : r.getD 0 0 = g.getD 0 0)
    (hr : ∀ k, r.getD (k + 1) 0 = g.getD (k + 1) 0 ^^^ mulPow n (g.getD k 0)) (k : Nat) :
    mulPow (k + 1) (r.getD (k + 1) 0) ^^^ r.getD (k + 1) 0 =
      mulPow (n + 1) (r.getD k 0) ^^^ mulPow k (r.getD k 0) := by
  have hleft : mulPow (k + 1) (r.getD (k + 1) 0) ^^^ r.getD (k + 1) 0 =
      mulPow (n + 1 + k) (g.getD k 0) ^^^ mulPow k (g.getD k 0) := by
    have hexp : k + 1 + n = n + 1 + k := by omega
    generalize hb : g.getD k 0 = b
    calc mulPow (k + 1) (r.getD (k + 1) 0) ^^^ r.getD (k + 1) 0
      _ = (mulPow (k + 1) (g.getD (k + 1) 0) ^^^ g.getD (k + 1) 0) ^^^ (mulPow (n + 1 + k) b ^^^ mulPow n b) := by
        rw [hr, mulPow_xor, mulPow_mulPow, hexp, hb]
        ac_rfl
      _ = (mulPow n b ^^^ mulPow k b) ^^^ (mulPow (n + 1 + k) b ^^^ mulPow n b) := by rw [h.ratio, hb]
      _ = mulPow (n + 1 + k) b ^^^ mulPow k b := xor_xor_cancel _ _ _
  rw [hleft]
  cases k with
  | zero => rw [hr0, Nat.add_zero]
  | succ j =>
    have hexp : j + 1 + n = n + 1 + j := by omega
    generalize hb : g.getD (j + 1) 0 = b
    generalize hc : g.getD j 0 = c
    have hratio : mulPow (j + 1) b ^^^ b = mulPow n c ^^^ mulPow j c := hb ▸ hc ▸ h.ratio j
    symm
    calc mulPow (n + 1) (r.getD (j + 1) 0) ^^^ mulPow (j + 1) (r.getD (j + 1) 0)
      _ = (mulPow (n + 1) b ^^^ mulPow (j + 1) b) ^^^ mulPow (n + 1) (mulPow n c ^^^ mulPow j c) := by
        simp only [hr, hb, hc, mulPow_xor, mulPow_mulPow, hexp]
        ac_rfl
      _ = (mulPow (n + 1) b ^^^ mulPow (j + 1) b) ^^^ (mulPow (n + 1 + (j + 1)) b ^^^ mulPow (n + 1) b) := by
        rw [← hratio, mulPow_xor, mulPow_mulPow]
      _ = mulPow (n + 1 + (j + 1)) b ^^^ mulPow (j + 1) b := xor_xor_cancel _ _ _

/-- Up to the end of the list the ratio is not 0, as long as `n` is below the order of the powers. -/
theorem getD_ne_zero (h : IsGenerator n g) (hn : n ≤ 254) (k : Nat) (hk : k ≤ n) : g.getD k 0 ≠ 0 := by
  induction k with
  | zero =>
    rw [h.lead]
    decide
  | succ k ih =>
    intro hzero
    have hratio := h.ratio k
    rw [hzero] at hratio
    have heq : mulPow n (g.getD k 0) = mulPow k (g.getD k 0) := by
      rw [← BitVec.xor_eq_zero_iff, ← hratio]
      simp
    have hmod := (mulPow_eq_mulPow_iff (ih (by omega))).mp heq
    omega

theorem zero_notMem (h : IsGenerator n g) (hn : n ≤ 254) : 0 ∉ g := by
  intro hmem
  obtain ⟨k, hk, hzero⟩ := List.getElem_of_mem hmem
  have hlen := h.length
  refine h.getD_ne_zero hn k (by omega) ?_
  rw [List.getD_eq_getElem _ _ hk, hzero]

/-- For `n = 255` the powers have come round, and the coefficient after the leading one is 0. -/
theorem zero_mem (h : IsGenerator 255 g) : 0 ∈ g := by
  have hlen := h.length
  have hzero : g.getD 1 0 = 0 := by
    by_contra hne
    have hone := h.ratio 0
    have hround : mulPow 255 (g.getD 0 0) = mulPow 0 (g.getD 0 0) :=
      (mulPow_eq_mulPow_iff (by rw [h.lead]; decide)).mpr rfl
    rw [hround, BitVec.xor_self] at hone
    have heq : mulPow 1 (g.getD 1 0) = mulPow 0 (g.getD 1 0) := by
      rw [mulPow_zero_left]
      exact BitVec.xor_eq_zero_iff.mp hone
    exact absurd ((mulPow_eq_mulPow_iff hne).mp heq) (by decide)
  rw [← hzero, List.getD_eq_getElem _ _ (by omega)]
  exact List.getElem_mem _

/-- One more factor makes the next generator. -/
theorem pmul_factor (h : IsGenerator n g) (hn : n ≤ 254) : ∃ r, pmul g [1, gexp n] = .ok r ∧ IsGenerator (n + 1) r := by
  have hlen := h.length
  have hfactor : 0 ∉ [1, gexp n] := by
    simpa using (gexp_ne_zero n).symm
  have hne : g ≠ [] := List.length_pos_iff.mp (by omega)
  obtain ⟨r, hr, hrlen, hcoeff⟩ := pmul_of_zero_notMem hne (List.cons_ne_nil 1 [gexp n])
    (by simp only [List.length_cons, List.length_nil]; omega) (h.zero_notMem hn) hfactor
  have hr0 : r.getD 0 0 = g.getD 0 0 := by rw [hcoeff, coefficientOf_factor_zero]
  have hrsucc : ∀ k, r.getD (k + 1) 0 = g.getD (k + 1) 0 ^^^ mulPow n (g.getD k 0) := fun k => by
    rw [hcoeff, coefficientOf_factor_succ, mulPow]
  simp only [List.length_cons, List.length_nil] at hrlen
  exact ⟨r, hr, ⟨by omega, hr0.trans h.lead, h.ratio_succ hr0 hrsucc⟩⟩

end IsGenerator

/-! ### The generators -/

theorem genProduct_isGenerator {n : Nat} (hn : n ≤ 255) : ∃ g, genProduct n = .ok g ∧ IsGenerator n g := by
  induction n with
  | zero => exact ⟨[1], rfl, isGenerator_zero⟩
  | succ n ih =>
    obtain ⟨g, hg, hgen⟩ := ih (by omega)
    obtain ⟨r, hr, hrgen⟩ := hgen.pmul_factor (by omega)
    refine ⟨r, ?_, hrgen⟩
    rw [genProduct, hg, check_ok_bind, hr]

theorem gen_eq_genProduct {n : Nat} (hn : n ≤ 255) : gen n = genProduct n :=
  require_bind_of (Nat.succ_le_succ hn) _ _

theorem gen_overflow {n : Nat} (hn : 256 ≤ n) : gen n = .error .overflow :=
  require_bind_error (Nat.not_le.mpr (Nat.lt_succ_of_le hn)) _ _

theorem gen_isGenerator {n : Nat} (hn : n ≤ 255) : ∃ g, gen n = .ok g ∧ IsGenerator n g := by
  rw [gen_eq_genProduct hn]
  exact genProduct_isGenerator hn

theorem gen_succ {n : Nat} {g : List Byte} (hn : n < 255) (hg : gen n = .ok g) : gen (n + 1) = pmul g [1, gexp n] := by
  rw [gen_eq_genProduct hn.le] at hg
  rw [gen_eq_genProduct hn, genProduct, hg, check_ok_bind]

theorem exec_pgen (d : Fin 4) (n : Nat) (s : State) :
    exec (.pgen d.val n) s = finish s (gen n >>= fun g => .ok ((s.setPoly d g).setResult (n + 1))) :=
  congrArg (finish s) (bufferIndex_val_bind d _)

/-- Settles O41: each generator is the one before times a factor, and none of its coefficients is 0 while `n` is below 255,
so that the next product stands. -/
theorem pgenBuildsTheGenerator : Obligations.PgenBuildsTheGenerator := by
  unfold Obligations.PgenBuildsTheGenerator
  refine ⟨gen_eq_genProduct (Nat.zero_le 255), fun n g => gen_succ, fun d n s hn => ?_, fun d n s w hn hw => ?_⟩
  · obtain ⟨g, hg, hgen⟩ := gen_isGenerator hn
    have hhead : g.head? = some 1 := by
      cases g with
      | nil => cases hgen.length
      | cons x xs => exact congrArg some hgen.lead
    refine ⟨g, hg, hgen.length, hhead, hgen.zero_notMem, ?_⟩
    rw [exec_pgen, hg, check_ok_bind]
    exact finish_poly rfl
  · rw [exec_pgen, gen_overflow hn]
    exact finish_fault hw rfl

/-! ### The remainder of a block -/

theorem trim_headD_ne_zero {l : List Byte} (h : ∃ x ∈ l, x ≠ 0) : (trim l).headD 0 ≠ 0 := by
  refine headD_ne_zero_of_normalized (trim_normalized l) fun htrim => ?_
  obtain ⟨x, hx, hx0⟩ := h
  induction l with
  | nil => simp at hx
  | cons y ys ih =>
    rw [trim_cons] at htrim
    by_cases hy : y = 0
    · have hxs : x ∈ ys := List.mem_of_ne_of_mem (hy ▸ hx0) hx
      rw [if_pos hy, if_neg (List.ne_nil_of_mem hxs)] at htrim
      exact ih htrim hxs
    · rw [if_neg hy] at htrim
      exact hy (List.cons.inj htrim).1

theorem trim_of_forall_eq_zero {l : List Byte} (hne : l ≠ []) (h : ∀ x ∈ l, x = 0) : trim l = [0] := by
  obtain ⟨k, hk⟩ := Nat.exists_eq_add_one.mpr (List.length_pos_iff.mpr hne)
  rw [List.eq_replicate_of_mem h, hk]
  exact trim_zeros k

/-- Right alignment fills with zeros on the left (R198). -/
theorem rightAlign_eq {n : Nat} {m : List Byte} (h : m.length ≤ n) : rightAlign n m = zeros (n - m.length) ++ m := by
  refine List.ext_getElem (by simp; omega) fun i hi hi' => ?_
  rw [rightAlign_length] at hi
  simp only [rightAlign, List.getElem_map, List.getElem_range, List.getElem_append, zeros_length]
  by_cases hleft : i < n - m.length
  · rw [if_neg (by omega), dif_pos hleft]
    exact (List.getElem_replicate _).symm
  · have hindex : i + m.length - n = i - (n - m.length) := by omega
    rw [if_pos (by omega), dif_neg hleft, hindex, List.getD_eq_getElem]

section
variable {l g : List Byte} {n : Nat}

theorem rsec_empty (n : Nat) : rsec [] n = .error .empty := rfl

theorem rsec_eq (hne : l ≠ []) : rsec l n =
    gen n >>= fun g => construct l n >>= fun raw => pmod raw g >>= fun m => .ok (rightAlign n m) := by
  have hlen : (l.length != 0) = true := bne_iff_ne.mpr (List.length_pos_iff.mpr hne).ne'
  rw [rsec, hlen, require_true, check_ok_bind]
  rfl

/-- With a generator, and room for the data and the codewords, the remainder decides. -/
theorem rsec_of_gen (hne : l ≠ []) (hg : gen n = .ok g) (hlen : (trim l).length + n ≤ 256) :
    rsec l n = pmod (trim l ++ zeros n) g >>= fun m => .ok (rightAlign n m) := by
  rw [rsec_eq hne, hg, check_ok_bind, construct_of_le hne hlen, check_ok_bind]

theorem rsec_overflow (hne : l ≠ []) (h : 256 ≤ n ∨ 256 < (trim l).length + n) : rsec l n = .error .overflow := by
  rw [rsec_eq hne]
  by_cases hn : 256 ≤ n
  · rw [gen_overflow hn, check_error_bind]
  · obtain ⟨g, hg, -⟩ := gen_isGenerator (by omega : n ≤ 255)
    rw [hg, check_ok_bind, construct_overflow hne (h.resolve_left hn), check_error_bind]

/-- The three divisions that cannot be done: by a constant generator, by the one with zero coefficients, and of zeros. -/
theorem rsec_domain (hne : l ≠ []) (hn : n ≤ 255) (hlen : (trim l).length + n ≤ 256)
    (h : n = 0 ∨ n = 255 ∨ ∀ x ∈ l, x = 0) : rsec l n = .error .domain := by
  obtain ⟨g, hg, hgen⟩ := gen_isGenerator hn
  have hglen := hgen.length
  have hpos := List.length_pos_iff.mpr (trim_ne_nil l)
  have hraw : (trim l ++ zeros n).length = (trim l).length + n := by rw [List.length_append, zeros_length]
  have hdomain : pmod (trim l ++ zeros n) g = .error .domain := by
    obtain rfl | rfl | hzero := h
    · refine pmod_domain_of_constant ?_ (by omega) hglen
      rw [zeros, List.replicate_zero, List.append_nil]
      exact trim_normalized l
    · exact pmod_domain_of_step (by omega) (.inr hgen.zero_mem)
    · refine pmod_domain_of_step (by omega) (.inl ?_)
      rw [trim_of_forall_eq_zero hne hzero]
      rfl
  rw [rsec_of_gen hne hg hlen, hdomain, check_error_bind]

/-- The shifted data is a dividend and a generator without zeros divides it. -/
theorem exists_pmod_gen_eq_ok (hgen : IsGenerator n g) (hn1 : 1 ≤ n) (hn : n ≤ 254) (hl : ∃ x ∈ l, x ≠ 0)
    (hlen : (trim l).length + n ≤ 256) : ∃ m, pmod (trim l ++ zeros n) g = .ok m ∧ m.length ≤ n := by
  have hglen := hgen.length
  have hraw : (trim l ++ zeros n).length ≤ 256 := by rwa [List.length_append, zeros_length]
  have hnorm : normalized (trim l ++ zeros n) = true := by
    have hhead := trim_headD_ne_zero hl
    cases htrim : trim l with
    | nil => exact absurd htrim (trim_ne_nil l)
    | cons x xs =>
      rw [htrim] at hhead
      exact normalized_of_getD_zero_ne hhead
  obtain ⟨m, hm⟩ := exists_pmod_eq_ok hnorm hraw (by omega) (hgen.zero_notMem hn)
  obtain ⟨-, hmlen⟩ := pmod_eq_ok hnorm hm
  exact ⟨m, hm, by omega⟩

end

theorem exec_rsec (d a : Fin 4) (n : Nat) (s : State) : exec (.rsec d.val a.val n) s =
    finish s (rsec (s.polys.get a) n >>= fun e => .ok ((s.setPoly d e).setResult n)) :=
  congrArg (finish s) ((bufferIndex_val_bind d _).trans (bufferIndex_val_bind a _))

/-- Settles O42: the generator exists and divides the shifted data, and right alignment pads the remainder. -/
theorem rsecReturnsTheCodewords : Obligations.RsecReturnsTheCodewords := by
  unfold Obligations.RsecReturnsTheCodewords
  rintro d a n s p hn1 hn hl rfl hlen
  have hne : s.polys.get a ≠ [] := by
    obtain ⟨x, hx, -⟩ := hl
    exact List.ne_nil_of_mem hx
  obtain ⟨g, hg, hgen⟩ := gen_isGenerator (by omega : n ≤ 255)
  obtain ⟨m, hm, hmlen⟩ := exists_pmod_gen_eq_ok hgen hn1 hn hl hlen
  refine ⟨g, m, hg, hm, hmlen, ?_⟩
  rw [exec_rsec, rsec_of_gen hne hg hlen, hm, check_ok_bind, check_ok_bind, rightAlign_eq hmlen]
  exact finish_poly rfl

/-- Settles O43: the data, then the generator and the room, then the division. -/
theorem rsecFaults : Obligations.RsecFaults := by
  unfold Obligations.RsecFaults
  rintro d a n s w p hw - rfl
  rw [exec_rsec]
  refine ⟨fun hempty => ?_, fun hne => ⟨fun h => ?_, fun hn hlen h => ?_⟩⟩
  · rw [hempty, rsec_empty]
    exact finish_fault hw rfl
  · rw [rsec_overflow hne h]
    exact finish_fault hw rfl
  · rw [rsec_domain hne hn hlen h]
    exact finish_fault hw rfl

end Sys2Proof.Machine
end

section
/-! PROOFS. The codeword buffer commands (44_codeword.md R221 to R225): each as one completion, and a completion that writes
the codeword buffer. -/

namespace Sys2Proof.Machine

section
variable (s : State)

theorem exec_cclr : exec .cclr s = finish s (.ok (s.setCw [])) := rfl

theorem exec_cpush (b : Byte) : exec (.cpush b) s =
    finish s (require (decide (s.cw.length < CWMAX)) .overflow >>= fun _ =>
      .ok ((s.setCw (s.cw ++ [b])).setResult (s.cw ++ [b]).length)) := rfl

theorem exec_crd (idx : Nat) : exec (.crd idx) s =
    finish s (requireBelow idx s.cw.length >>= fun _ => .ok (s.setResult (s.cw.getD idx 0).toNat)) := rfl

theorem exec_cpushp (a : Fin 4) : exec (.cpushp a.val) s =
    finish s (require (decide ((s.cw ++ s.polys.get a).length ≤ CWMAX)) .overflow >>= fun _ =>
      .ok ((s.setCw (s.cw ++ s.polys.get a)).setResult (s.cw ++ s.polys.get a).length)) :=
  congrArg (finish s) (bufferIndex_val_bind a _)

theorem exec_clen : exec .clen s = finish s (.ok (s.setResult s.cw.length)) := rfl

end

/-- A computation that answers a list for the codeword buffer and a number completes with the two and writes nothing else. -/
theorem finish_codewords {s : State} {r : Check State} {l : List Byte} {v : Nat}
    (h : r = .ok ((s.setCw l).setResult v)) :
    finish s r = .next { s with cw := l, result := BitVec.ofNat 32 v, pending := none, started := none, done := true } := by
  rw [h]
  rfl

/-- Settles O44: the room or the index passes its check, and the completion writes the codewords, RESULT, or both. -/
theorem codewordCommandsComplete : Obligations.CodewordCommandsComplete := by
  unfold Obligations.CodewordCommandsComplete
  refine ⟨fun s => ?_, fun b s hroom => ?_, fun idx s hidx => ?_, fun a s hroom => ?_, fun s => ?_⟩
  · rw [exec_cclr]
    rfl
  · rw [exec_cpush, require_bind_of hroom, List.length_append]
    exact finish_codewords rfl
  · rw [exec_crd, requireBelow, require_bind_of hidx, List.getD_eq_getElem _ _ hidx]
    exact finish_resultByte rfl
  · rw [exec_cpushp, List.length_append, require_bind_of hroom]
    exact finish_codewords rfl
  · rw [exec_clen]
    exact finish_result rfl

end Sys2Proof.Machine
end

section
/-! PROOFS. Matrix cells after a step of `Set`s (45_matrix_build.md R241): each cell keeps its colour, or takes the first
colour that the step asks for there. So the format, version and dark-module commands (R251 to R258) write what they say. -/

namespace Sys2Proof.Machine

/-! ### Colours, and reads of a square matrix -/

@[simp] theorem Cell.unset_orElse (x : Cell) : Cell.unset.orElse x = x := rfl

@[simp] theorem Cell.orElse_unset (x : Cell) : x.orElse .unset = x := by
  cases x <;> rfl

theorem Cell.orElse_assoc (x y z : Cell) : (x.orElse y).orElse z = x.orElse (y.orElse z) := by
  cases x <;> rfl

theorem Cell.orElse_eq_unset_iff {x y : Cell} : x.orElse y = .unset ↔ x = .unset ∧ y = .unset := by
  cases x <;> simp [Cell.orElse]

/-- A colour is there to stay. -/
theorem Cell.orElse_of_set {x : Cell} (h : x.isUnset = false) (y : Cell) : x.orElse y = x := by
  cases x with
  | unset => cases h
  | light | dark => rfl

@[simp] theorem Cell.ofBool_orElse (b : Bool) (y : Cell) : (Cell.ofBool b).orElse y = Cell.ofBool b :=
  Cell.orElse_of_set (Cell.ofBool_isUnset b) y

@[simp] theorem Cell.ofBool_ne_unset (b : Bool) : Cell.ofBool b ≠ .unset :=
  Cell.isUnset_eq_false_iff.mp (Cell.ofBool_isUnset b)

section
variable {n : Nat} {g : Grid} {r c : Nat}

theorem cellAt_outside (h : squareGrid n g) (hout : ¬(r < n ∧ c < n)) : cellAt g r c = .unset := by
  obtain ⟨hlen, hrows⟩ := h
  by_cases hr : r < n
  · have hr' : r < g.length := hlen ▸ hr
    have hrow : (g[r]).length = n := hrows _ (List.getElem_mem hr')
    rw [cellAt, List.getD_eq_getElem _ _ hr', List.getD_eq_default _ _ (by omega)]
  · have hrow : g.getD r [] = [] := List.getD_eq_default _ _ (by omega)
    rw [cellAt, hrow]
    rfl

/-- `cellAt_setCell` for a `Set` anywhere, read inside the matrix. -/
theorem cellAt_setCell_inside (h : squareGrid n g) (hr : r < n) (hc : c < n) (i j : Nat) (v : Cell) :
    cellAt (setCell g i j v) r c = if i = r ∧ j = c then (cellAt g r c).orElse v else cellAt g r c := by
  have hr' : r < g.length := h.1 ▸ hr
  have hc' : c < (g[r]).length := (h.2 _ (List.getElem_mem hr')).symm ▸ hc
  simp only [cellAt, setCell, List.getD_eq_getElem?_getD, List.getElem?_modify]
  by_cases hi : i = r
  · by_cases hj : j = c <;> simp [hi, hj, hr', hc']
  · simp [hi]

/-! ### What a list of `Set`s leaves -/

/-- The first colour that a list of `Set`s asks for at the cell `(r, c)`. -/
def asked (ps : List Placement) (r c : Nat) : Cell :=
  match ps with
  | [] => .unset
  | p :: ps => (if p.row = r ∧ p.col = c then p.colour else .unset).orElse (asked ps r c)

/-- A read after a list of `Set`s. -/
theorem cellAt_placeAll (h : squareGrid n g) (hr : r < n) (hc : c < n) (ps : List Placement) :
    cellAt (placeAll g ps) r c = (cellAt g r c).orElse (asked ps r c) := by
  induction ps generalizing g with
  | nil => exact (Cell.orElse_unset _).symm
  | cons p ps ih =>
    have hstep : cellAt (placeAll g (p :: ps)) r c =
        (cellAt (setCell g p.row p.col p.colour) r c).orElse (asked ps r c) := ih (squareGrid_setCell _ _ _ h)
    rw [hstep, cellAt_setCell_inside h hr hc, asked]
    split
    · exact Cell.orElse_assoc _ _ _
    · rfl

end

theorem placeAll_append (g : Grid) (ps qs : List Placement) : placeAll g (ps ++ qs) = placeAll (placeAll g ps) qs :=
  List.foldl_append

theorem asked_append (ps qs : List Placement) (r c : Nat) :
    asked (ps ++ qs) r c = (asked ps r c).orElse (asked qs r c) := by
  induction ps with
  | nil => rfl
  | cons p ps ih => simp only [List.cons_append, asked, ih, Cell.orElse_assoc]

/-- No `Set` names the cell. -/
theorem asked_of_not_named {ps : List Placement} {r c : Nat} (h : ∀ p ∈ ps, ¬(p.row = r ∧ p.col = c)) :
    asked ps r c = .unset := by
  induction ps with
  | nil => rfl
  | cons p ps ih =>
    obtain ⟨hp, hps⟩ := List.forall_mem_cons.mp h
    rw [asked, if_neg hp, ih hps, Cell.unset_orElse]

/-- Some `Set` names the cell, and all that do agree on the colour. -/
theorem asked_of_named {ps : List Placement} {r c : Nat} {x : Cell} (hnamed : ∃ p ∈ ps, p.row = r ∧ p.col = c)
    (hcolour : ∀ p ∈ ps, p.row = r → p.col = c → p.colour = x) : asked ps r c = x := by
  induction ps with
  | nil => simp at hnamed
  | cons p ps ih =>
    obtain ⟨hp, hps⟩ := List.forall_mem_cons.mp hcolour
    have htail : asked ps r c = x ∨ asked ps r c = .unset := by
      by_cases hn : ∃ q ∈ ps, q.row = r ∧ q.col = c
      · exact .inl (ih hn hps)
      · exact .inr (asked_of_not_named fun q hq hat => hn ⟨q, hq, hat⟩)
    rw [asked]
    split
    · rename_i hat
      rw [hp hat.1 hat.2]
      obtain h | h := htail <;> rw [h]
      · cases x <;> rfl
      · exact Cell.orElse_unset x
    · rename_i hat
      rw [List.exists_mem_cons_iff, or_iff_right hat] at hnamed
      exact ih hnamed hps

/-! ### A word written twice -/

theorem mem_wordPlacements {n w : Nat} {pos : Nat → Nat × Nat} {p : Placement} :
    p ∈ wordPlacements n w pos ↔
      ∃ i < n, { row := (pos i).1, col := (pos i).2, colour := Cell.ofBool (w.testBit i) } = p := by
  simp only [wordPlacements, List.mem_map, List.mem_range]

/-- The `Set`s of a word written to two places. -/
theorem mem_wordPlacements_append {n w : Nat} {pos pos' : Nat → Nat × Nat} {p : Placement} :
    p ∈ wordPlacements n w pos ++ wordPlacements n w pos' ↔
      ∃ i < n, ((p.row, p.col) = pos i ∨ (p.row, p.col) = pos' i) ∧ p.colour = Cell.ofBool (w.testBit i) := by
  obtain ⟨r, c, x⟩ := p
  simp only [wordPlacements, List.mem_append, List.mem_map, List.mem_range, Placement.mk.injEq, Prod.ext_iff]
  grind

/-- The step of R252 and R256: a word goes to its two places, if these lie inside and no two bits share a cell. -/
theorem wordWritten_placeAll {size n w : Nat} {g : Grid} {pos pos' : Nat → Nat × Nat} (h : squareGrid size g)
    (hinside : ∀ i < n, ∀ q, q = pos i ∨ q = pos' i → q.1 < size ∧ q.2 < size)
    (hinj : ∀ i < n, ∀ j < n, ∀ q, q = pos i ∨ q = pos' i → q = pos j ∨ q = pos' j → i = j) :
    WordWritten g (placeAll g (wordPlacements n w pos ++ wordPlacements n w pos')) n w pos pos' := by
  refine ⟨fun i hi => ?_, fun r c hrc => ?_⟩
  · have hcell : ∀ q, q = pos i ∨ q = pos' i →
        cellAt (placeAll g (wordPlacements n w pos ++ wordPlacements n w pos')) q.1 q.2 =
          (cellAt g q.1 q.2).orElse (Cell.ofBool (w.testBit i)) := by
      intro q hq
      obtain ⟨hr, hc⟩ := hinside i hi q hq
      rw [cellAt_placeAll h hr hc]
      refine congrArg _ (asked_of_named ⟨⟨q.1, q.2, Cell.ofBool (w.testBit i)⟩, ?_, rfl, rfl⟩ fun p hp hrow hcol => ?_)
      · exact mem_wordPlacements_append.mpr ⟨i, hi, hq, rfl⟩
      · obtain ⟨j, hj, hpq, hcolour⟩ := mem_wordPlacements_append.mp hp
        rw [hcolour, hinj i hi j hj q hq (by rwa [hrow, hcol] at hpq)]
    exact ⟨hcell _ (.inl rfl), hcell _ (.inr rfl)⟩
  · by_cases hin : r < size ∧ c < size
    · rw [cellAt_placeAll h hin.1 hin.2, asked_of_not_named, Cell.orElse_unset]
      rintro p hp ⟨rfl, rfl⟩
      obtain ⟨i, hi, hat, -⟩ := mem_wordPlacements_append.mp hp
      obtain ⟨hv, hv'⟩ := hrc i hi
      exact hat.elim hv hv'
    · rw [cellAt_outside h hin, cellAt_outside (squareGrid_placeAll _ h) hin]

/-! ### The commands -/

/-- What a valid matrix of the right shape is (R53). -/
theorem State.matrixShape.of_valid {s : State} (h : s.matrixShape) (hm : s.mvalid = true) :
    1 ≤ s.ver ∧ s.ver ≤ 40 ∧ s.size = sideOf s.ver ∧ squareGrid s.size s.mat :=
  h.2 hm

theorem State.requireMatrix_bind {α : Type} {s : State} (h : s.mvalid = true) (f : Unit → Check α) :
    (s.requireMatrix >>= f) = f () := by
  rw [State.requireMatrix, h, require_true, check_ok_bind]

/-- A computation that answers cells and a number completes with the two and writes nothing else. -/
theorem finish_cells {s : State} {r : Check State} {g : Grid} {v : Nat} (h : r = .ok ((s.setMat g).setResult v)) :
    finish s r = .next { s with
      mat := g, result := BitVec.ofNat 32 v, pending := none, started := none, done := true } := by
  rw [h]
  rfl

section
variable {s : State} (hm : s.mvalid = true)
include hm

theorem exec_mfmt (t : Bool) (mask : Fin 8) (lvl : Fin 4) : exec (.mfmt t mask lvl) s = .next { s with
    mat := placeFormat s.size s.mat (formatWord lvl mask t)
    result := BitVec.ofNat 32 (formatWord lvl mask t)
    pending := none
    started := none
    done := true } :=
  finish_cells (State.requireMatrix_bind hm _)

theorem exec_mveri_small (t : Bool) (hv : s.ver < 7) :
    exec (.mveri t) s = .next { s with result := 0, pending := none, started := none, done := true } :=
  finish_result ((State.requireMatrix_bind hm _).trans (if_pos hv))

theorem exec_mveri_large (t : Bool) (hv : 7 ≤ s.ver) : exec (.mveri t) s = .next { s with
    mat := placeVersion s.size s.mat (versionWord s.cfg s.ver t)
    result := BitVec.ofNat 32 (versionWord s.cfg s.ver t)
    pending := none
    started := none
    done := true } :=
  finish_cells ((State.requireMatrix_bind hm _).trans (if_neg (Nat.not_lt.mpr hv)))

theorem exec_mdark (t : Bool) : exec (.mdark t) s = .next { s with
    mat := placeDark s.size s.mat (darkColour s.cfg t)
    result := BitVec.ofNat 32 (bit (darkColour s.cfg t).isDark)
    pending := none
    started := none
    done := true } :=
  finish_cells (State.requireMatrix_bind hm _)

theorem exec_mdata (mask : Fin 8) : exec (.mdata mask) s = .next { s with
    mat := placeData s.size mask s.cw s.mat
    result := BitVec.ofNat 32 (zigzag s.size s.mat).length
    pending := none
    started := none
    done := true } :=
  finish_cells (State.requireMatrix_bind hm _)

end

/-- The level and the mask do not overlap in the 5 bits of format data (R249). -/
theorem formatWord_eq (lvl : Fin 4) (mask : Fin 8) (t : Bool) :
    formatWord lvl mask t = if t then 0 else bch15 (lvl.val * 8 + mask.val) := by
  have hdata : ∀ (lvl : Fin 4) (mask : Fin 8), (lvl.val <<< 3) ||| mask.val = lvl.val * 8 + mask.val := by decide
  rw [formatWord, hdata]

theorem formatCells_inside {size : Nat} (hsize : 21 ≤ size) : ∀ i < 15, ∀ q, q = formatV size i ∨ q = formatH size i →
    q.1 < size ∧ q.2 < size := by
  rintro i hi q (rfl | rfl)
  · unfold formatV
    split_ifs <;> omega
  · unfold formatH
    split_ifs <;> omega

/-- The 30 cells of the format word are distinct (R251). -/
theorem formatCells_distinct {size : Nat} (hsize : 21 ≤ size) : ∀ i < 15, ∀ j < 15, ∀ q,
    q = formatV size i ∨ q = formatH size i → q = formatV size j ∨ q = formatH size j → i = j := by
  rintro i hi j hj ⟨r, c⟩ hqi hqj
  simp only [formatV, formatH] at hqi hqj
  split_ifs at hqi hqj <;> simp only [Prod.mk.injEq] at hqi hqj <;> omega

/-- Settles O48: the two places of each format bit are its own. -/
theorem mfmtWritesBothCopies : Obligations.MfmtWritesBothCopies := by
  unfold Obligations.MfmtWritesBothCopies
  intro t mask lvl s hshape hm
  obtain ⟨hlo, -, hsize, hsquare⟩ := hshape.of_valid hm
  have h21 : 21 ≤ s.size := by rw [hsize, sideOf]; omega
  have hwritten := wordWritten_placeAll (w := formatWord lvl mask t) hsquare (formatCells_inside h21)
    (formatCells_distinct h21)
  have hexec := exec_mfmt hm t mask lvl
  rw [formatWord_eq] at hwritten hexec
  exact ⟨_, hwritten, hexec⟩

/-- The version blocks lie inside the matrix (R255). -/
theorem versionCells_inside {size : Nat} (hsize : 21 ≤ size) : ∀ i < 18, ∀ q,
    q = versionA size i ∨ q = versionB size i → q.1 < size ∧ q.2 < size := by
  rintro i hi q (rfl | rfl) <;> simp only [versionA, versionB] <;> omega

/-- The 36 cells of the version word are distinct (R255). -/
theorem versionCells_distinct {size : Nat} (hsize : 21 ≤ size) : ∀ i < 18, ∀ j < 18, ∀ q,
    q = versionA size i ∨ q = versionB size i → q = versionA size j ∨ q = versionB size j → i = j := by
  rintro i hi j hj ⟨r, c⟩ hqi hqj
  simp only [versionA, versionB, Prod.mk.injEq] at hqi hqj
  omega

theorem versionWord_eq (cfg : Config) (v : Nat) (t : Bool) :
    versionWord cfg v t = if t = true ∧ cfg.testVersionInfo = .zero then 0 else bch18 v := by
  simp only [versionWord, Bool.and_eq_true, beq_iff_eq]

/-- Settles O49: below version 7 there is no block, and from there on the two places of each version bit are its own. -/
theorem mveriWritesBothBlocks : Obligations.MveriWritesBothBlocks := by
  unfold Obligations.MveriWritesBothBlocks
  intro t s hshape hm
  obtain ⟨hlo, -, hsize, hsquare⟩ := hshape.of_valid hm
  have h21 : 21 ≤ s.size := by rw [hsize, sideOf]; omega
  refine ⟨exec_mveri_small hm t, fun hv w hw => ?_⟩
  rw [← versionWord_eq] at hw
  subst hw
  exact ⟨_, wordWritten_placeAll hsquare (versionCells_inside h21) (versionCells_distinct h21),
    exec_mveri_large hm t hv⟩

theorem darkColour_eq (cfg : Config) (t : Bool) :
    darkColour cfg t = Cell.ofBool !(t && cfg.testDarkModule == .light) := by
  rw [darkColour]
  cases t && cfg.testDarkModule == .light <;> rfl

/-- Settles O50: MDARK is one `Set`. -/
theorem mdarkWritesTheDarkModule : Obligations.MdarkWritesTheDarkModule := by
  unfold Obligations.MdarkWritesTheDarkModule
  intro t s hshape hm dark hdark
  obtain ⟨hlo, -, hsize, hsquare⟩ := hshape.of_valid hm
  have h21 : 21 ≤ s.size := by rw [hsize, sideOf]; omega
  have hread := cellAt_setCell hsquare (r := s.size - 8) (c := 8) (by omega) (by omega) (Cell.ofBool dark)
  have hexec := exec_mdark hm t
  rw [darkColour_eq, ← hdark, Cell.ofBool_isDark] at hexec
  refine ⟨placeDark s.size s.mat (Cell.ofBool dark), ?_, fun r c hrc => ?_, ?_⟩
  · exact (hread _ _).trans (if_pos ⟨rfl, rfl⟩)
  · exact (hread r c).trans (if_neg fun hat => hrc (Prod.ext hat.1 hat.2))
  · rw [hexec]
    cases dark <;> rfl

end Sys2Proof.Machine
end

section
/-! PROOFS. The skeleton (45_matrix_build.md R240 to R248) as one list of `Set`s: the finder corners, the alignment
patterns whose centres no finder covers, and the timing patterns. What each of the three lists asks for at a cell gives
the skeleton's cells. -/

namespace Sys2Proof.Machine

/-! ### What a square pattern asks for -/

theorem mem_intRange {lo hi x : Int} : x ∈ intRange lo hi ↔ lo ≤ x ∧ x ≤ hi := by
  simp only [intRange, List.bind_eq_flatMap, List.mem_map, List.mem_flatMap, List.mem_range, List.pure_def,
    List.mem_singleton]
  constructor
  · rintro ⟨_, ⟨k, hk, rfl⟩, rfl⟩
    omega
  · rintro ⟨hlo, hhi⟩
    exact ⟨_, ⟨(x - lo).toNat, by omega, rfl⟩, by omega⟩

theorem mem_pattern {size : Nat} {R C lo hi : Int} {isDark : Int → Int → Bool} {p : Placement} :
    p ∈ pattern size R C (intRange lo hi) isDark ↔
      p.row < size ∧ p.col < size ∧ (lo ≤ p.row - R ∧ p.row - R ≤ hi) ∧ (lo ≤ p.col - C ∧ p.col - C ≤ hi) ∧
      p.colour = Cell.ofBool (isDark (p.row - R) (p.col - C)) := by
  obtain ⟨r, c, x⟩ := p
  simp only [pattern, List.mem_flatMap, List.mem_filterMap, mem_intRange, Option.ite_none_right_eq_some,
    Option.some.injEq, Placement.mk.injEq]
  constructor
  · rintro ⟨i, hi, j, hj, hin, rfl, rfl, rfl⟩
    have hrow : ((R + i).toNat : Int) - R = i := by omega
    have hcol : ((C + j).toNat : Int) - C = j := by omega
    rw [hrow, hcol]
    exact ⟨by omega, by omega, hi, hj, rfl⟩
  · rintro ⟨hr, hc, hi, hj, rfl⟩
    exact ⟨r - R, hi, c - C, hj, by omega, by omega, by omega, rfl⟩

theorem Cell.ite_orElse (p : Prop) [Decidable p] (b : Bool) (y : Cell) :
    (if p then Cell.ofBool b else .unset).orElse y = if p then Cell.ofBool b else y := by
  split <;> simp

section
variable {size r c : Nat} (hr : r < size) (hc : c < size)
include hr hc

theorem asked_pattern (R C lo hi : Int) (isDark : Int → Int → Bool) :
    asked (pattern size R C (intRange lo hi) isDark) r c =
      if (lo ≤ r - R ∧ r - R ≤ hi) ∧ lo ≤ c - C ∧ c - C ≤ hi then Cell.ofBool (isDark (r - R) (c - C)) else .unset := by
  split
  · rename_i hin
    refine asked_of_named ⟨⟨r, c, Cell.ofBool (isDark (r - R) (c - C))⟩,
      mem_pattern.mpr ⟨hr, hc, hin.1, hin.2, rfl⟩, rfl, rfl⟩ ?_
    rintro p hp rfl rfl
    obtain ⟨-, -, -, -, hcolour⟩ := mem_pattern.mp hp
    exact hcolour
  · rename_i hout
    refine asked_of_not_named ?_
    rintro p hp ⟨rfl, rfl⟩
    obtain ⟨-, -, hrow, hcol, -⟩ := mem_pattern.mp hp
    exact hout ⟨hrow, hcol⟩

end

/-! ### Step 1: the finder corners -/

/-- The three corners of finder and separator. -/
def inCorner (v r c : Nat) : Prop :=
  (r < 8 ∧ c < 8) ∨ (r < 8 ∧ 4 * v + 9 ≤ c) ∨ (4 * v + 9 ≤ r ∧ c < 8)

section
variable {v r c : Nat} (hr : r < sideOf v) (hc : c < sideOf v)
include hr hc

theorem asked_finderPlacements : asked (finderPlacements (sideOf v)) r c =
    if r < 8 ∧ c < 8 then Cell.ofBool (finderDark r c)
    else if 4 * v + 9 ≤ r ∧ c < 8 then Cell.ofBool (finderDark (r - (4 * v + 10)) c)
    else if r < 8 ∧ 4 * v + 9 ≤ c then Cell.ofBool (finderDark r (c - (4 * v + 10))) else .unset := by
  have hside : ((sideOf v : Nat) : Int) - 7 = 4 * v + 10 := by simp only [sideOf]; omega
  have hlast : sideOf v = 4 * v + 17 := rfl
  have htl : ((-1 ≤ (r : Int) ∧ (r : Int) ≤ 7) ∧ -1 ≤ (c : Int) ∧ (c : Int) ≤ 7) ↔ r < 8 ∧ c < 8 := by omega
  have hbl : ((-1 ≤ (r : Int) - (4 * v + 10) ∧ (r : Int) - (4 * v + 10) ≤ 7) ∧ -1 ≤ (c : Int) ∧ (c : Int) ≤ 7) ↔
      4 * v + 9 ≤ r ∧ c < 8 := by omega
  have htr : ((-1 ≤ (r : Int) ∧ (r : Int) ≤ 7) ∧ -1 ≤ (c : Int) - (4 * v + 10) ∧ (c : Int) - (4 * v + 10) ≤ 7) ↔
      r < 8 ∧ 4 * v + 9 ≤ c := by omega
  rw [finderPlacements, asked_append, asked_append, Cell.orElse_assoc]
  simp only [asked_pattern hr hc, hside, sub_zero, htl, hbl, htr, Cell.ite_orElse]

theorem asked_finderPlacements_eq_unset_iff : asked (finderPlacements (sideOf v)) r c = .unset ↔ ¬inCorner v r c := by
  rw [asked_finderPlacements hr hc, inCorner]
  split_ifs <;> simp only [Cell.ofBool_ne_unset, true_iff, false_iff] <;> omega

end

/-! ### Step 2: the alignment patterns -/

/-- What the table of R244 has: the entries are even, 6 or `SIZE - 7` or well between them. -/
theorem alignCentres_range : ∀ v, v < 41 → 1 ≤ v → ∀ R ∈ alignCentres v,
    2 ≤ v ∧ R % 2 = 0 ∧ (R = 6 ∨ R = 4 * v + 10 ∨ (16 ≤ R ∧ R + 6 ≤ 4 * v + 10)) := by decide +kernel

/-- Different entries are so far apart that their patterns do not touch. -/
theorem alignCentres_apart : ∀ v, v < 41 → ∀ R ∈ alignCentres v, ∀ R' ∈ alignCentres v,
    R = R' ∨ R + 12 ≤ R' ∨ R' + 12 ≤ R := by decide +kernel

theorem alignCentres_nodup : ∀ v, v < 41 → (alignCentres v).Nodup := by decide +kernel

/-- The ordered pairs of entries of `ALIGN[v]` (R245). -/
def alignPairs (v : Nat) : List (Nat × Nat) :=
  alignCentres v ×ˢ alignCentres v

/-- The `Set`s of one alignment pattern. -/
def alignmentPlacements (size : Nat) (p : Nat × Nat) : List Placement :=
  pattern size p.1 p.2 (intRange (-2) 2) alignDark

/-- The patterns of step 2 with their centres on `p` and `q` share no cell. -/
def PatternsApart (p q : Nat × Nat) : Prop :=
  p.1 + 5 ≤ q.1 ∨ q.1 + 5 ≤ p.1 ∨ p.2 + 5 ≤ q.2 ∨ q.2 + 5 ≤ p.2

theorem placeAlignments_eq_foldl (size v : Nat) (g : Grid) :
    placeAlignments size v g = (alignPairs v).foldl (fun g p => placeAlignment size g p.1 p.2) g := by
  simp only [placeAlignments, alignPairs, SProd.sprod, List.product, List.foldl_flatMap, List.foldl_map]

theorem alignmentPlacements_keep_centre {size : Nat} {g : Grid} (h : squareGrid size g) {p q : Nat × Nat}
    (hq : q.1 < size ∧ q.2 < size) (hapart : PatternsApart p q) :
    cellAt (placeAll g (alignmentPlacements size p)) q.1 q.2 = cellAt g q.1 q.2 := by
  rw [cellAt_placeAll h hq.1 hq.2, alignmentPlacements, asked_pattern hq.1 hq.2, if_neg, Cell.orElse_unset]
  unfold PatternsApart at hapart
  omega

/-- Patterns apart from each other do not cover each other's centres, so each is decided by the cells before step 2. -/
theorem foldl_placeAlignment {size : Nat} {g₀ : Grid} {ps : List (Nat × Nat)} (hin : ∀ p ∈ ps, p.1 < size ∧ p.2 < size)
    (hapart : ps.Pairwise PatternsApart) {g : Grid} (h : squareGrid size g)
    (hsame : ∀ p ∈ ps, cellAt g p.1 p.2 = cellAt g₀ p.1 p.2) :
    ps.foldl (fun g p => placeAlignment size g p.1 p.2) g =
      placeAll g ((ps.filter fun p => (cellAt g₀ p.1 p.2).isUnset).flatMap (alignmentPlacements size)) := by
  induction ps generalizing g with
  | nil => rfl
  | cons p ps ih =>
    obtain ⟨-, hin⟩ := List.forall_mem_cons.mp hin
    obtain ⟨hp, hapart⟩ := List.pairwise_cons.mp hapart
    obtain ⟨hsamep, hsame⟩ := List.forall_mem_cons.mp hsame
    rw [List.foldl_cons, placeAlignment, hsamep, List.filter_cons]
    split
    · rw [List.flatMap_cons, placeAll_append]
      refine ih hin hapart (squareGrid_placeAll _ h) fun q hq => ?_
      rw [← hsame q hq]
      exact alignmentPlacements_keep_centre h (hin q hq) (hp q hq)
    · exact ih hin hapart h hsame

/-- The pairs at which step 2 places a pattern: their centres are in no finder corner. -/
def standingPairs (v : Nat) : List (Nat × Nat) :=
  (alignPairs v).filter fun p => (asked (finderPlacements (sideOf v)) p.1 p.2).isUnset

/-- All the `Set`s of step 2. -/
def alignmentPlacementsAll (v : Nat) : List Placement :=
  (standingPairs v).flatMap (alignmentPlacements (sideOf v))

theorem mem_alignPairs {v : Nat} {p : Nat × Nat} : p ∈ alignPairs v ↔ p.1 ∈ alignCentres v ∧ p.2 ∈ alignCentres v :=
  List.mem_product

theorem Cell.isUnset_iff {x : Cell} : x.isUnset = true ↔ x = .unset := by
  cases x <;> simp [Cell.isUnset]

section
variable {v : Nat} (hv1 : 1 ≤ v) (hv40 : v ≤ 40)
include hv1 hv40

theorem alignPairs_inside {p : Nat × Nat} (hp : p ∈ alignPairs v) : p.1 < sideOf v ∧ p.2 < sideOf v := by
  obtain ⟨hR, hC⟩ := mem_alignPairs.mp hp
  have hrow := alignCentres_range v (by omega) hv1 _ hR
  have hcol := alignCentres_range v (by omega) hv1 _ hC
  rw [sideOf]
  omega

omit hv1 in
theorem alignPairs_apart : (alignPairs v).Pairwise PatternsApart := by
  have hnodup := alignCentres_nodup v (by omega)
  refine (hnodup.product hnodup).imp_of_mem fun {p q} hp hq hne => ?_
  obtain ⟨hpR, hpC⟩ := mem_alignPairs.mp hp
  obtain ⟨hqR, hqC⟩ := mem_alignPairs.mp hq
  have hrow := alignCentres_apart v (by omega) _ hpR _ hqR
  have hcol := alignCentres_apart v (by omega) _ hpC _ hqC
  have hdiff : ¬(p.1 = q.1 ∧ p.2 = q.2) := fun h => hne (Prod.ext h.1 h.2)
  unfold PatternsApart
  omega

/-- The pairs of step 2 are those of R245: all but the three in a finder corner. -/
theorem mem_standingPairs {R C : Nat} : (R, C) ∈ standingPairs v ↔ alignmentStands v R C := by
  rw [standingPairs, List.mem_filter, mem_alignPairs, alignmentStands, and_assoc]
  refine and_congr_right fun hR => and_congr_right fun hC => ?_
  obtain ⟨hRin, hCin⟩ := alignPairs_inside hv1 hv40 (mem_alignPairs (p := (R, C)).mpr ⟨hR, hC⟩)
  have hrow := alignCentres_range v (by omega) hv1 _ hR
  have hcol := alignCentres_range v (by omega) hv1 _ hC
  rw [Cell.isUnset_iff, asked_finderPlacements_eq_unset_iff hRin hCin, inCorner]
  simp only [ne_eq, Prod.mk.injEq]
  omega

end

theorem cellAt_blankGrid {size r c : Nat} (hr : r < size) (hc : c < size) : cellAt (blankGrid size) r c = .unset := by
  simp [cellAt, blankGrid, List.getD_eq_getElem?_getD, hr, hc]

/-- A read after `Set`s on a blank matrix. -/
theorem cellAt_placeAll_blank {size r c : Nat} (hr : r < size) (hc : c < size) (ps : List Placement) :
    cellAt (placeAll (blankGrid size) ps) r c = asked ps r c := by
  rw [cellAt_placeAll (squareGrid_blank size) hr hc, cellAt_blankGrid hr hc, Cell.unset_orElse]

section
variable {v : Nat} (hv1 : 1 ≤ v) (hv40 : v ≤ 40)
include hv1 hv40

/-- The skeleton is three lists of `Set`s on a blank matrix. -/
theorem skeleton_eq_placeAll : skeleton v = placeAll (blankGrid (sideOf v))
    (finderPlacements (sideOf v) ++ (alignmentPlacementsAll v ++ timingPlacements (sideOf v))) := by
  have hstanding : standingPairs v = (alignPairs v).filter fun p =>
      (cellAt (placeAll (blankGrid (sideOf v)) (finderPlacements (sideOf v))) p.1 p.2).isUnset := by
    refine List.filter_congr fun p hp => ?_
    obtain ⟨hr, hc⟩ := alignPairs_inside hv1 hv40 hp
    rw [cellAt_placeAll_blank hr hc]
  have halign := foldl_placeAlignment (fun p => alignPairs_inside hv1 hv40) (alignPairs_apart hv40)
    (squareGrid_placeAll (finderPlacements (sideOf v)) (squareGrid_blank (sideOf v))) (fun _ _ => rfl)
  rw [placeAll_append, placeAll_append, alignmentPlacementsAll, hstanding, ← halign, ← placeAlignments_eq_foldl]
  rfl

theorem cellAt_skeleton {r c : Nat} (hr : r < sideOf v) (hc : c < sideOf v) : cellAt (skeleton v) r c =
    (asked (finderPlacements (sideOf v)) r c).orElse
      ((asked (alignmentPlacementsAll v) r c).orElse (asked (timingPlacements (sideOf v)) r c)) := by
  rw [skeleton_eq_placeAll hv1 hv40, cellAt_placeAll_blank hr hc, asked_append, asked_append]

end

/-! ### What each step asks for -/

theorem asked_flatMap_eq_unset_iff {α : Type} {l : List α} {f : α → List Placement} {r c : Nat} :
    asked (l.flatMap f) r c = .unset ↔ ∀ a ∈ l, asked (f a) r c = .unset := by
  induction l with
  | nil => simp [asked]
  | cons a l ih => rw [List.flatMap_cons, asked_append, Cell.orElse_eq_unset_iff, ih, List.forall_mem_cons]

/-- Lists that ask for nothing else than `x` at a cell ask together for nothing else. -/
theorem asked_flatMap_agree {α : Type} {l : List α} {f : α → List Placement} {r c : Nat} {x : Cell}
    (h : ∀ a ∈ l, asked (f a) r c = .unset ∨ asked (f a) r c = x) :
    asked (l.flatMap f) r c = .unset ∨ asked (l.flatMap f) r c = x := by
  induction l with
  | nil => exact .inl rfl
  | cons a l ih =>
    obtain ⟨ha, hl⟩ := List.forall_mem_cons.mp h
    rw [List.flatMap_cons, asked_append]
    obtain ha | ha := ha
    · rw [ha, Cell.unset_orElse]
      exact ih hl
    · rw [ha]
      obtain hu | hu := ih hl <;> rw [hu]
      · exact .inr (Cell.orElse_unset x)
      · cases x <;> exact .inr rfl

/-- The cell lies in the 5×5 square with its centre on `(R, C)`. -/
def inAlignment (R C r c : Nat) : Prop :=
  R ≤ r + 2 ∧ r ≤ R + 2 ∧ C ≤ c + 2 ∧ c ≤ C + 2

theorem asked_alignmentPlacements_of_not_in {size r c R C : Nat} (hr : r < size) (hc : c < size)
    (h : ¬inAlignment R C r c) : asked (alignmentPlacements size (R, C)) r c = .unset := by
  unfold inAlignment at h
  rw [alignmentPlacements, asked_pattern hr hc, if_neg (by omega)]

theorem asked_alignmentPlacements_of_in {size r c R C : Nat} (hr : r < size) (hc : c < size) (h : inAlignment R C r c) :
    asked (alignmentPlacements size (R, C)) r c = Cell.ofBool (alignDark (r - R) (c - C)) := by
  unfold inAlignment at h
  rw [alignmentPlacements, asked_pattern hr hc, if_pos (by omega)]

/-- One line of step 3: `Set`s at the indices 8 to `SIZE - 9`, dark at even ones, of which `k₀` would name the cell. -/
theorem asked_timingLine {size r c k₀ : Nat} {onLine : Prop} [Decidable onLine] {f : Nat → Placement}
    (hat : ∀ k, (f k).row = r ∧ (f k).col = c ↔ onLine ∧ k = k₀)
    (hcolour : ∀ k, (f k).colour = Cell.ofBool (k % 2 == 0)) :
    asked (((List.range (size - 16)).map fun k => k + 8).map f) r c =
      if onLine ∧ 8 ≤ k₀ ∧ k₀ + 9 ≤ size then Cell.ofBool (k₀ % 2 == 0) else .unset := by
  split
  · rename_i h
    refine asked_of_named ⟨f k₀, ?_, (hat k₀).mpr ⟨h.1, rfl⟩⟩ fun p hp hrow hcol => ?_
    · simp only [List.map_map, List.mem_map, List.mem_range, Function.comp_apply]
      exact ⟨k₀ - 8, by omega, congrArg f (by omega)⟩
    · obtain ⟨k, -, rfl⟩ := List.mem_map.mp hp
      rw [hcolour, ((hat k).mp ⟨hrow, hcol⟩).2]
  · rename_i h
    refine asked_of_not_named fun p hp hnamed => h ?_
    simp only [List.map_map, List.mem_map, List.mem_range, Function.comp_apply] at hp
    obtain ⟨k, hk, rfl⟩ := hp
    obtain ⟨hline, rfl⟩ := (hat (k + 8)).mp hnamed
    exact ⟨hline, by omega, by omega⟩

theorem asked_timingPlacements (size r c : Nat) : asked (timingPlacements size) r c =
    if c = 6 ∧ 8 ≤ r ∧ r + 9 ≤ size then Cell.ofBool (r % 2 == 0)
    else if r = 6 ∧ 8 ≤ c ∧ c + 9 ≤ size then Cell.ofBool (c % 2 == 0) else .unset := by
  have hcolumn := asked_timingLine (size := size) (r := r) (c := c) (k₀ := r) (onLine := c = 6)
    (f := fun r => { row := r, col := 6, colour := Cell.ofBool (r % 2 == 0) }) (fun k => by simp only; omega)
    (fun _ => rfl)
  have hrow := asked_timingLine (size := size) (r := r) (c := c) (k₀ := c) (onLine := r = 6)
    (f := fun c => { row := 6, col := c, colour := Cell.ofBool (c % 2 == 0) }) (fun k => by simp only; omega)
    (fun _ => rfl)
  simp only [timingPlacements, asked_append, hcolumn, hrow, Cell.ite_orElse]

theorem asked_timingPlacements_eq_unset_iff (size r c : Nat) : asked (timingPlacements size) r c = .unset ↔
    ¬((c = 6 ∧ 8 ≤ r ∧ r + 9 ≤ size) ∨ (r = 6 ∧ 8 ≤ c ∧ c + 9 ≤ size)) := by
  rw [asked_timingPlacements]
  split_ifs <;> simp only [Cell.ofBool_ne_unset, true_iff, false_iff] <;> omega

section
variable {v : Nat} (hv1 : 1 ≤ v) (hv40 : v ≤ 40)
include hv1 hv40

theorem asked_alignmentPlacementsAll_eq_unset_iff {r c : Nat} (hr : r < sideOf v) (hc : c < sideOf v) :
    asked (alignmentPlacementsAll v) r c = .unset ↔ ¬∃ R C, alignmentStands v R C ∧ inAlignment R C r c := by
  rw [alignmentPlacementsAll, asked_flatMap_eq_unset_iff]
  constructor
  · rintro h ⟨R, C, hstands, hin⟩
    have hunset := h _ ((mem_standingPairs hv1 hv40).mpr hstands)
    rw [asked_alignmentPlacements_of_in hr hc hin] at hunset
    exact Cell.ofBool_ne_unset _ hunset
  · rintro h ⟨R, C⟩ hp
    exact asked_alignmentPlacements_of_not_in hr hc fun hin => h ⟨R, C, (mem_standingPairs hv1 hv40).mp hp, hin⟩

/-- At a cell of which all the patterns that cover it have one colour, step 2 asks for nothing else. -/
theorem asked_alignmentPlacementsAll_agree {r c : Nat} {x : Cell} (hr : r < sideOf v) (hc : c < sideOf v)
    (h : ∀ R C, alignmentStands v R C → inAlignment R C r c → Cell.ofBool (alignDark (r - R) (c - C)) = x) :
    asked (alignmentPlacementsAll v) r c = .unset ∨ asked (alignmentPlacementsAll v) r c = x := by
  refine asked_flatMap_agree ?_
  rintro ⟨R, C⟩ hp
  by_cases hin : inAlignment R C r c
  · rw [asked_alignmentPlacements_of_in hr hc hin]
    exact .inr (h R C ((mem_standingPairs hv1 hv40).mp hp) hin)
  · exact .inl (asked_alignmentPlacements_of_not_in hr hc hin)

/-- R247: the cells the three steps leave UNSET. -/
theorem cellAt_skeleton_eq_unset_iff {r c : Nat} (hr : r < sideOf v) (hc : c < sideOf v) :
    cellAt (skeleton v) r c = .unset ↔ ¬skeletonSets v r c := by
  rw [cellAt_skeleton hv1 hv40 hr hc, Cell.orElse_eq_unset_iff, Cell.orElse_eq_unset_iff,
    asked_finderPlacements_eq_unset_iff hr hc, asked_alignmentPlacementsAll_eq_unset_iff hv1 hv40 hr hc,
    asked_timingPlacements_eq_unset_iff, skeletonSets, inCorner]
  simp only [sideOf, inAlignment] at hr hc ⊢
  by_cases hin : ∃ R C, alignmentStands v R C ∧ R ≤ r + 2 ∧ r ≤ R + 2 ∧ C ≤ c + 2 ∧ c ≤ C + 2
  · simp only [hin, not_true_eq_false, or_true, false_and, and_false]
  · simp only [hin, not_false_eq_true, or_false, true_and]
    omega

end

/-! ### The statements on the skeleton -/

theorem requireVersion_bind {α : Type} {v : Nat} (hv1 : 1 ≤ v) (hv40 : v ≤ 40) (f : Unit → Check α) :
    (requireVersion v >>= f) = f () := by
  rw [requireVersion, decide_eq_true hv1, decide_eq_true hv40, Bool.and_true, require_true, check_ok_bind]

/-- A computation that starts a matrix and answers a number completes with the two and writes nothing else. -/
theorem finish_matrix {s : State} {r : Check State} {v n : Nat} {g : Grid}
    (h : r = .ok ((s.startMatrix v g).setResult n)) :
    finish s r = .next { s with
      mvalid := true
      ver := v
      size := 4 * v + 17
      mat := g
      result := BitVec.ofNat 32 n
      pending := none
      started := none
      done := true } := by
  rw [h]
  rfl

theorem exec_mskel {v : Nat} (hv1 : 1 ≤ v) (hv40 : v ≤ 40) (s : State) : exec (.mskel v) s = .next { s with
    mvalid := true
    ver := v
    size := 4 * v + 17
    mat := skeleton v
    result := BitVec.ofNat 32 (4 * v + 17)
    pending := none
    started := none
    done := true } :=
  finish_matrix (requireVersion_bind hv1 hv40 _)

/-- Settles O45: the cells by `cellAt_skeleton_eq_unset_iff`. -/
theorem mskelStartsTheMatrix : Obligations.MskelStartsTheMatrix := by
  unfold Obligations.MskelStartsTheMatrix
  intro v s hv1 hv40
  exact ⟨squareGrid_skeleton v, fun r c hr hc => cellAt_skeleton_eq_unset_iff hv1 hv40 hr hc, exec_mskel hv1 hv40 s⟩

/-- R242, R243: the finder's rings and the light cells around it, as one condition on the offsets. -/
theorem ofBool_finderDark (i j : Int) : Cell.ofBool (finderDark i j) =
    if 0 ≤ i ∧ i ≤ 6 ∧ 0 ≤ j ∧ j ≤ 6 ∧
      ((i = 0 ∨ i = 6) ∨ (j = 0 ∨ j = 6) ∨ (2 ≤ i ∧ i ≤ 4 ∧ 2 ≤ j ∧ j ≤ 4)) then .dark else .light := by
  rw [Cell.ofBool]
  refine if_congr ?_ rfl rfl
  simp only [finderDark, Bool.or_eq_true, Bool.and_eq_true, decide_eq_true_eq, beq_iff_eq]
  omega

/-- Settles O46: step 1 decides the cells of the three corners, each of which is in one corner only. -/
theorem skeletonHasFindersAndSeparators : Obligations.SkeletonHasFindersAndSeparators := by
  unfold Obligations.SkeletonHasFindersAndSeparators
  intro v hv1 hv40 R C hcorner i j hi0 hi7 hj0 hj7 hR0 hRn hC0 hCn
  obtain ⟨r, hr⟩ := Int.eq_ofNat_of_zero_le hR0
  obtain ⟨c, hc⟩ := Int.eq_ofNat_of_zero_le hC0
  have hrin : r < sideOf v := by rw [sideOf]; omega
  have hcin : c < sideOf v := by rw [sideOf]; omega
  have hasked : asked (finderPlacements (sideOf v)) r c = Cell.ofBool (finderDark i j) := by
    rw [asked_finderPlacements hrin hcin]
    obtain ⟨rfl, rfl⟩ | ⟨rfl, rfl⟩ | ⟨rfl, rfl⟩ := hcorner
    · obtain ⟨rfl, rfl⟩ : i = r ∧ j = c := by omega
      rw [if_pos (by omega)]
    · obtain ⟨rfl, rfl⟩ : i = r - (4 * v + 10) ∧ j = c := by omega
      rw [if_neg (by omega), if_pos (by omega)]
    · obtain ⟨rfl, rfl⟩ : i = r ∧ j = c - (4 * v + 10) := by omega
      rw [if_neg (by omega), if_neg (by omega), if_pos (by omega)]
  rw [hr, hc, Int.toNat_natCast, Int.toNat_natCast, cellAt_skeleton hv1 hv40 hrin hcin, hasked, Cell.ofBool_orElse,
    ofBool_finderDark]

/-- On its middle lines an alignment pattern alternates, as the timing patterns do. -/
theorem alignDark_axis : ∀ d : Int, -2 ≤ d → d ≤ 2 →
    alignDark d 0 = decide (d % 2 = 0) ∧ alignDark 0 d = decide (d % 2 = 0) := by
  intro d hlo hhi
  interval_cases d <;> decide

/-- R245: the colours of an alignment pattern by offsets from its corner. -/
theorem ofBool_alignDark : ∀ i ≤ 4, ∀ j ≤ 4, Cell.ofBool (alignDark ((i : Nat) - 2) ((j : Nat) - 2)) =
    if i = 0 ∨ i = 4 ∨ j = 0 ∨ j = 4 ∨ (i = 2 ∧ j = 2) then .dark else .light := by
  decide

theorem ofBool_even (k : Nat) : Cell.ofBool (k % 2 == 0) = if k % 2 = 0 then .dark else .light := by
  simp only [Cell.ofBool, beq_iff_eq]

/-- The entries of the table by their distances (R244). -/
theorem alignCentres_eq : ∀ v, v < 41 → 2 ≤ v → alignCentres v =
    6 :: (List.range (v / 7 + 1)).map fun k => 4 * v + 10 - (v / 7 - k) * alignmentGaps.getD (v - 2) 0 := by
  decide +kernel

theorem Cell.orElse_of_agree {x y : Cell} (h : y = .unset ∨ y = x) : y.orElse x = x := by
  obtain rfl | rfl := h
  · rfl
  · cases y <;> rfl

section
variable {v : Nat} (hv1 : 1 ≤ v) (hv40 : v ≤ 40)
include hv1 hv40

/-- Where the centres of the pairs lie. -/
theorem alignmentStands_range {R C : Nat} (h : alignmentStands v R C) :
    (2 ≤ v ∧ R % 2 = 0 ∧ (R = 6 ∨ R = 4 * v + 10 ∨ (16 ≤ R ∧ R + 6 ≤ 4 * v + 10))) ∧
    (C % 2 = 0 ∧ (C = 6 ∨ C = 4 * v + 10 ∨ (16 ≤ C ∧ C + 6 ≤ 4 * v + 10))) ∧
    ¬(R = 6 ∧ C = 6) ∧ ¬(R = 6 ∧ C = 4 * v + 10) ∧ ¬(R = 4 * v + 10 ∧ C = 6) := by
  obtain ⟨hR, hC, hcorner⟩ := h
  simp only [ne_eq, Prod.mk.injEq] at hcorner
  exact ⟨alignCentres_range v (by omega) hv1 R hR, (alignCentres_range v (by omega) hv1 C hC).2, hcorner⟩

/-- R246: column 6 and row 6, where the alignment patterns that cover a cell agree with the timing pattern. -/
theorem cellAt_skeleton_timing {r c k : Nat} (hk8 : 8 ≤ k) (hk : k ≤ 4 * v + 8)
    (hline : (r = k ∧ c = 6) ∨ (r = 6 ∧ c = k)) : cellAt (skeleton v) r c = Cell.ofBool (k % 2 == 0) := by
  have hside : sideOf v = 4 * v + 17 := rfl
  have hr : r < sideOf v := by omega
  have hc : c < sideOf v := by omega
  have hfinder : asked (finderPlacements (sideOf v)) r c = .unset :=
    (asked_finderPlacements_eq_unset_iff hr hc).mpr (by rw [inCorner]; omega)
  have halign := asked_alignmentPlacementsAll_agree hv1 hv40 (x := Cell.ofBool (k % 2 == 0)) hr hc
    fun R C hstands hin => by
      have hrange := alignmentStands_range hv1 hv40 hstands
      unfold inAlignment at hin
      refine congrArg _ ?_
      obtain ⟨rfl, rfl⟩ | ⟨rfl, rfl⟩ := hline
      · obtain rfl : C = 6 := by omega
        rw [Int.sub_self, (alignDark_axis _ (by omega) (by omega)).1]
        exact decide_eq_decide.mpr (by omega)
      · obtain rfl : R = 6 := by omega
        rw [Int.sub_self, (alignDark_axis _ (by omega) (by omega)).2]
        exact decide_eq_decide.mpr (by omega)
  have htiming : asked (timingPlacements (sideOf v)) r c = Cell.ofBool (k % 2 == 0) := by
    rw [asked_timingPlacements]
    obtain ⟨rfl, rfl⟩ | ⟨rfl, rfl⟩ := hline
    · rw [if_pos (by omega)]
    · rw [if_neg (by omega), if_pos (by omega)]
  rw [cellAt_skeleton hv1 hv40 hr hc, hfinder, Cell.unset_orElse, htiming, Cell.orElse_of_agree halign]

/-- R245: a pattern that stands has its colours, since no finder and no other pattern touches it. -/
theorem cellAt_skeleton_alignment {R C r c : Nat} (hstands : alignmentStands v R C) (hin : inAlignment R C r c) :
    cellAt (skeleton v) r c = Cell.ofBool (alignDark (r - R) (c - C)) := by
  have hrange := alignmentStands_range hv1 hv40 hstands
  have hbox := hin
  unfold inAlignment at hbox
  have hr : r < sideOf v := by rw [sideOf]; omega
  have hc : c < sideOf v := by rw [sideOf]; omega
  have hfinder : asked (finderPlacements (sideOf v)) r c = .unset :=
    (asked_finderPlacements_eq_unset_iff hr hc).mpr (by rw [inCorner]; omega)
  have halign := asked_alignmentPlacementsAll_agree hv1 hv40 (x := Cell.ofBool (alignDark (r - R) (c - C))) hr hc
    fun R' C' hstands' hin' => by
      have hrow := alignCentres_apart v (by omega) R hstands.1 R' hstands'.1
      have hcol := alignCentres_apart v (by omega) C hstands.2.1 C' hstands'.2.1
      unfold inAlignment at hin'
      obtain ⟨rfl, rfl⟩ : R = R' ∧ C = C' := by omega
      rfl
  have hset : asked (alignmentPlacementsAll v) r c ≠ .unset := fun hunset =>
    (asked_alignmentPlacementsAll_eq_unset_iff hv1 hv40 hr hc).mp hunset ⟨R, C, hstands, hin⟩
  rw [cellAt_skeleton hv1 hv40 hr hc, hfinder, Cell.unset_orElse, halign.resolve_left hset, Cell.ofBool_orElse]

end

/-- Settles O47: the two timing lines, the table of centres, and the colours of a pattern by its offsets. -/
theorem skeletonHasTimingAndAlignmentPatterns : Obligations.SkeletonHasTimingAndAlignmentPatterns := by
  unfold Obligations.SkeletonHasTimingAndAlignmentPatterns
  refine ⟨fun v hv1 hv40 k hk8 hk => ?_, rfl, fun v hv2 hv40 => alignCentres_eq v (by omega) hv2,
    fun v hv1 hv40 R C hstands i j hi hj => ?_⟩
  · rw [← ofBool_even]
    exact ⟨cellAt_skeleton_timing hv1 hv40 hk8 hk (.inl ⟨rfl, rfl⟩),
      cellAt_skeleton_timing hv1 hv40 hk8 hk (.inr ⟨rfl, rfl⟩)⟩
  · have hrange := alignmentStands_range hv1 hv40 hstands
    have hrow : ((R + i - 2 : Nat) : Int) - R = i - 2 := by omega
    have hcol : ((C + j - 2 : Nat) : Int) - C = j - 2 := by omega
    rw [cellAt_skeleton_alignment hv1 hv40 hstands (by unfold inAlignment; omega), hrow, hcol,
      ofBool_alignDark i hi j hj]

end Sys2Proof.Machine
end

section
/-! PROOFS. The walk of the data cells and what MDATA writes (45_matrix_build.md R259 to R262): visit `n` of the walk by
its strip, its row in the strip and its side of the pair, which also says where a given cell is visited. -/

namespace Sys2Proof.Machine

/-! ### Lists cut into pieces of one length -/

/-- The pieces, one after the other, are one list, whose entry `n` stands in piece `n / l` at index `n % l`. -/
theorem flatMap_range_map {α : Type} (m l : Nat) (f : Nat → Nat → α) :
    (List.range m).flatMap (fun k => (List.range l).map (f k)) =
      (List.range (m * l)).map (fun n => f (n / l) (n % l)) := by
  induction m with
  | zero => simp
  | succ m ih =>
    have hpiece : (List.range l).map (f m) = (List.range l).map fun j => f ((m * l + j) / l) ((m * l + j) % l) := by
      refine List.map_congr_left fun j hj => ?_
      have hj := List.mem_range.mp hj
      rw [Nat.mul_comm m l, Nat.mul_add_div (by omega), Nat.mul_add_mod, Nat.div_eq_of_lt hj, Nat.mod_eq_of_lt hj,
        Nat.add_zero]
    rw [List.range_succ, List.flatMap_append, ih, List.flatMap_singleton, hpiece, Nat.succ_mul, List.range_add,
      List.map_append, List.map_map]
    rfl

/-! ### The visits of the walk -/

/-- The row of index `i` in strip `k`, upward in even strips. -/
def walkRow (size k i : Nat) : Nat :=
  if k % 2 = 0 then size - 1 - i else i

/-- The right column of strip `k`, past column 6 shifted left by one. -/
def walkColumn (size k : Nat) : Nat :=
  if k < (size - 7) / 2 then size - 1 - 2 * k else size - 2 - 2 * k

theorem walkCell_eq (size n : Nat) : walkCell size n =
    (walkRow size (n / (2 * size)) (n % (2 * size) / 2), walkColumn size (n / (2 * size)) - n % 2) := rfl

/-- A strip of the walk, visit by visit. -/
theorem zigzagStrip_eq {size k : Nat} (hodd : size % 2 = 1) (h7 : 7 ≤ size) :
    zigzagStrip size k =
      (List.range (2 * size)).map fun j => (walkRow size k (j / 2), walkColumn size k - j % 2) := by
  have hcol : (if size - 1 - 2 * k ≤ 6 then size - 1 - 2 * k - 1 else size - 1 - 2 * k) = walkColumn size k := by
    unfold walkColumn
    split_ifs <;> omega
  have hrows : (if k % 2 = 0 then (List.range size).reverse else List.range size) =
      (List.range size).map (walkRow size k) := by
    unfold walkRow
    split
    · rw [List.range_eq_range', List.reverse_range', ← List.range_eq_range']
      exact List.map_congr_left fun i _ => by omega
    · exact (List.map_id' _).symm
  have hpairs := flatMap_range_map size 2 fun i b => (walkRow size k i, walkColumn size k - b)
  rw [Nat.mul_comm size 2] at hpairs
  simp only [zigzagStrip, hcol, hrows, List.flatMap_map, ← hpairs]
  rfl

theorem zigzagVisits_eq {size : Nat} (hodd : size % 2 = 1) (h7 : 7 ≤ size) :
    zigzagVisits size = (List.range (size * (size - 1))).map (walkCell size) := by
  have hcount : (size - 1) / 2 * (2 * size) = size * (size - 1) := by
    rw [← Nat.mul_assoc, Nat.div_mul_cancel (by omega), Nat.mul_comm]
  rw [zigzagVisits, List.flatMap_congr fun k _ => zigzagStrip_eq hodd h7, flatMap_range_map, hcount]
  refine List.map_congr_left fun n _ => ?_
  rw [walkCell_eq, Nat.mod_mul_right_mod]

theorem Cell.beq_unset (x : Cell) : (x == .unset) = x.isUnset := by
  cases x <;> rfl

/-- `zigzag()` in terms of the walk of R259. -/
theorem zigzag_eq {size : Nat} (hodd : size % 2 = 1) (h7 : 7 ≤ size) (g : Grid) : zigzag size g =
    ((List.range (size * (size - 1))).map (walkCell size)).filter (fun p => cellAt g p.1 p.2 == .unset) := by
  simp only [zigzag, zigzagVisits_eq hodd h7, Cell.beq_unset]

/-! ### Which cells the walk visits -/

section
variable {size : Nat}

theorem walkCell_at {k i b : Nat} (hi : i < size) (hb : b < 2) :
    walkCell size (2 * size * k + (2 * i + b)) = (walkRow size k i, walkColumn size k - b) := by
  have hj : 2 * i + b < 2 * size := by omega
  have hmod : (2 * size * k + (2 * i + b)) % 2 = b := by
    rw [Nat.mul_assoc, Nat.mul_add_mod]
    omega
  have hindex : (2 * i + b) / 2 = i := by omega
  rw [walkCell_eq, Nat.mul_add_div (by omega), Nat.mul_add_mod, Nat.div_eq_of_lt hj, Nat.mod_eq_of_lt hj, Nat.add_zero,
    hmod, hindex]

variable (hodd : size % 2 = 1)
include hodd

/-- A visit belongs to the walk exactly when its strip does. -/
theorem visit_lt_iff {k i b : Nat} (hi : i < size) (hb : b < 2) :
    2 * size * k + (2 * i + b) < size * (size - 1) ↔ k < (size - 1) / 2 := by
  have hcount : size * (size - 1) = 2 * size * ((size - 1) / 2) := by
    rw [Nat.mul_right_comm, Nat.mul_div_cancel' (by omega), Nat.mul_comm]
  rw [hcount]
  constructor
  · intro h
    exact Nat.lt_of_mul_lt_mul_left (Nat.lt_of_le_of_lt (Nat.le_add_right _ _) h)
  · intro h
    have hle := Nat.mul_le_mul_left (2 * size) h
    rw [Nat.mul_succ] at hle
    omega

/-- Every visit has its strip `k`, its index `i` in the strip and its side `b` of the pair. -/
theorem exists_visit {n : Nat} (hn : n < size * (size - 1)) :
    ∃ k i b, k < (size - 1) / 2 ∧ i < size ∧ b < 2 ∧ n = 2 * size * k + (2 * i + b) := by
  have hpos : 0 < size := by omega
  have hj : n % (2 * size) < 2 * size := Nat.mod_lt _ (by omega)
  have hsplit : n = 2 * size * (n / (2 * size)) + (2 * (n % (2 * size) / 2) + n % (2 * size) % 2) := by
    rw [Nat.div_add_mod, Nat.div_add_mod]
  have hi : n % (2 * size) / 2 < size := by omega
  have hb : n % (2 * size) % 2 < 2 := Nat.mod_lt _ (by decide)
  exact ⟨_, _, _, (visit_lt_iff hodd hi hb).mp (hsplit ▸ hn), hi, hb, hsplit⟩

variable (h7 : 7 ≤ size)
include h7

/-- A visit lies inside and not in column 6. -/
theorem walkCell_inside {n : Nat} (hn : n < size * (size - 1)) :
    (walkCell size n).1 < size ∧ (walkCell size n).2 < size ∧ (walkCell size n).2 ≠ 6 := by
  obtain ⟨k, i, b, hk, hi, hb, rfl⟩ := exists_visit hodd hn
  rw [walkCell_at hi hb, walkRow, walkColumn]
  refine ⟨?_, ?_⟩
  · split_ifs <;> omega
  · split_ifs <;> omega

/-- No cell is visited twice: its column gives the strip and the side, and then its row gives the index. -/
theorem walkCell_injective {m n : Nat} (hm : m < size * (size - 1)) (hn : n < size * (size - 1))
    (h : walkCell size m = walkCell size n) : m = n := by
  obtain ⟨k, i, b, hk, hi, hb, rfl⟩ := exists_visit hodd hm
  obtain ⟨k', i', b', hk', hi', hb', rfl⟩ := exists_visit hodd hn
  rw [walkCell_at hi hb, walkCell_at hi' hb', Prod.mk.injEq] at h
  obtain ⟨hrow, hcol⟩ := h
  obtain ⟨rfl, rfl⟩ : k = k' ∧ b = b' := by
    unfold walkColumn at hcol
    split_ifs at hcol <;> omega
  obtain rfl : i = i' := by
    unfold walkRow at hrow
    split_ifs at hrow <;> omega
  rfl

/-- Every cell outside column 6 is visited. -/
theorem exists_walkCell {r c : Nat} (hr : r < size) (hc : c < size) (h6 : c ≠ 6) :
    ∃ n < size * (size - 1), walkCell size n = (r, c) := by
  have hvisit : ∀ k b, k < (size - 1) / 2 → b < 2 → walkColumn size k - b = c →
      ∃ n < size * (size - 1), walkCell size n = (r, c) := by
    intro k b hk hb hcol
    have hi : walkRow size k r < size := by
      unfold walkRow
      split <;> omega
    refine ⟨_, (visit_lt_iff hodd hi hb).mpr hk, ?_⟩
    rw [walkCell_at hi hb, hcol, walkRow, walkRow]
    split <;> congr 1
    omega
  by_cases hside : 6 < c
  · refine hvisit ((size - 1 - c) / 2) ((size - 1 - c) % 2) (by omega) (Nat.mod_lt _ (by decide)) ?_
    rw [walkColumn, if_pos (by omega)]
    omega
  · refine hvisit ((size - 2 - c) / 2) ((size - 2 - c) % 2) (by omega) (Nat.mod_lt _ (by decide)) ?_
    rw [walkColumn, if_neg (by omega)]
    omega

/-- The walk's cells as a list: each one outside column 6 once (R259). -/
theorem nodup_walk : ((List.range (size * (size - 1))).map (walkCell size)).Nodup :=
  List.nodup_range.map_on fun _ hm _ hn h =>
    walkCell_injective hodd h7 (List.mem_range.mp hm) (List.mem_range.mp hn) h

theorem mem_walk {r c : Nat} :
    (r, c) ∈ (List.range (size * (size - 1))).map (walkCell size) ↔ r < size ∧ c < size ∧ c ≠ 6 := by
  simp only [List.mem_map, List.mem_range]
  constructor
  · rintro ⟨n, hn, hcell⟩
    have hinside := walkCell_inside hodd h7 hn
    rwa [hcell] at hinside
  · rintro ⟨hr, hc, h6⟩
    exact exists_walkCell hodd h7 hr hc h6

end

/-- Settles O52: every side is odd, so the strips pair the columns but column 6. -/
theorem zigzagWalksEveryCellOnceInOrder : Obligations.ZigzagWalksEveryCellOnceInOrder := by
  unfold Obligations.ZigzagWalksEveryCellOnceInOrder
  intro v n hn
  have hodd : n % 2 = 1 := by omega
  have h7 : 7 ≤ n := by omega
  exact ⟨zigzag_eq hodd h7, nodup_walk hodd h7, fun r c => mem_walk hodd h7⟩

/-! ### The data step -/

section
variable {n : Nat} {m : Fin 8} {cells : List ((Nat × Nat) × Bool)} {r c : Nat}

theorem cellAt_fillData_of_notMem (hin : ∀ p ∈ cells, p.1.1 < n ∧ p.1.2 < n) {g : Grid} (h : squareGrid n g)
    (hnot : (r, c) ∉ cells.map Prod.fst) : cellAt (fillData m g cells) r c = cellAt g r c := by
  induction cells generalizing g with
  | nil => rfl
  | cons p cells ih =>
    obtain ⟨hp, hin⟩ := List.forall_mem_cons.mp hin
    rw [List.map_cons, List.mem_cons, not_or] at hnot
    refine (ih hin (squareGrid_writeCell _ _ _ h) hnot.2).trans ?_
    rw [cellAt_writeCell h hp.1 hp.2, if_neg]
    rintro ⟨rfl, rfl⟩
    exact hnot.1 rfl

theorem cellAt_fillData_of_mem (hin : ∀ p ∈ cells, p.1.1 < n ∧ p.1.2 < n) {g : Grid} (h : squareGrid n g)
    (hnodup : (cells.map Prod.fst).Nodup) {b : Bool} (hmem : ((r, c), b) ∈ cells) :
    cellAt (fillData m g cells) r c = Cell.ofBool (b ^^ maskf m r c) := by
  induction cells generalizing g with
  | nil => cases hmem
  | cons p cells ih =>
    obtain ⟨hp, hrest⟩ := List.forall_mem_cons.mp hin
    obtain ⟨hfirst, hnodupRest⟩ := List.nodup_cons.mp hnodup
    obtain rfl | hmemRest := List.mem_cons.mp hmem
    · refine (cellAt_fillData_of_notMem hrest (squareGrid_writeCell _ _ _ h) hfirst).trans ?_
      rw [cellAt_writeCell h hp.1 hp.2, if_pos ⟨rfl, rfl⟩]
    · exact ih hrest (squareGrid_writeCell _ _ _ h) hnodupRest hmemRest

end

theorem map_fst_dataBits (order : List (Nat × Nat)) (cw : List Byte) : (dataBits order cw).map Prod.fst = order :=
  List.map_fst_zip (by simp)

/-- Cell `k` of the order takes bit `k` of the stream, and 0 past its end (R260). -/
theorem mem_dataBits {order : List (Nat × Nat)} (cw : List Byte) {k : Nat} (hk : k < order.length) :
    (order[k], (bitStream cw)[k]?.getD false) ∈ dataBits order cw := by
  have hbit : (bitStream cw ++ List.replicate order.length false)[k]? = some ((bitStream cw)[k]?.getD false) := by
    by_cases hlt : k < (bitStream cw).length
    · simp [List.getElem?_append_left hlt, hlt]
    · rw [List.getElem?_append_right (by omega), List.getElem?_eq_none (l := bitStream cw) (by omega),
        List.getElem?_replicate, if_pos (by omega)]
      rfl
  refine List.mem_iff_getElem?.mpr ⟨k, ?_⟩
  rw [dataBits, List.getElem?_zip_eq_some]
  exact ⟨List.getElem?_eq_getElem hk, hbit⟩

section
variable {size : Nat} (hodd : size % 2 = 1) (h7 : 7 ≤ size)
include hodd h7

theorem mem_zigzag {g : Grid} {r c : Nat} :
    (r, c) ∈ zigzag size g ↔ (r < size ∧ c < size ∧ c ≠ 6) ∧ cellAt g r c = .unset := by
  rw [zigzag_eq hodd h7, List.mem_filter, mem_walk hodd h7, beq_iff_eq]

theorem nodup_zigzag (g : Grid) : (zigzag size g).Nodup := by
  rw [zigzag_eq hodd h7]
  exact (nodup_walk hodd h7).filter _

theorem dataBits_inside {g : Grid} (cw : List Byte) :
    ∀ p ∈ dataBits (zigzag size g) cw, p.1.1 < size ∧ p.1.2 < size := by
  rintro ⟨⟨r, c⟩, b⟩ hp
  obtain ⟨⟨hr, hc, -⟩, -⟩ := (mem_zigzag hodd h7).mp (List.of_mem_zip hp).1
  exact ⟨hr, hc⟩

variable {g : Grid} (h : squareGrid size g) (m : Fin 8) (cw : List Byte)
include h

theorem cellAt_placeData_of_notMem {r c : Nat} (hnot : (r, c) ∉ zigzag size g) :
    cellAt (placeData size m cw g) r c = cellAt g r c :=
  cellAt_fillData_of_notMem (dataBits_inside hodd h7 cw) h (by rwa [map_fst_dataBits])

theorem cellAt_placeData_getElem {r c k : Nat} (hk : k < (zigzag size g).length) (hcell : (zigzag size g)[k] = (r, c)) :
    cellAt (placeData size m cw g) r c = Cell.ofBool ((bitStream cw)[k]?.getD false ^^ maskf m r c) := by
  refine cellAt_fillData_of_mem (dataBits_inside hodd h7 cw) h ?_ (hcell ▸ mem_dataBits cw hk)
  rw [map_fst_dataBits]
  exact nodup_zigzag hodd h7 g

/-- After the data step only column 6 can have UNSET cells. -/
theorem cellAt_placeData_isUnset {r c : Nat} (hr : r < size) (hc : c < size) (h6 : c ≠ 6) :
    (cellAt (placeData size m cw g) r c).isUnset = false := by
  by_cases hmem : (r, c) ∈ zigzag size g
  · obtain ⟨k, hk, hcell⟩ := List.mem_iff_getElem.mp hmem
    rw [cellAt_placeData_getElem hodd h7 h m cw hk hcell, Cell.ofBool_isUnset]
  · rw [cellAt_placeData_of_notMem hodd h7 h m cw hmem, Cell.isUnset_eq_false_iff]
    exact fun hunset => hmem ((mem_zigzag hodd h7).mpr ⟨⟨hr, hc, h6⟩, hunset⟩)

/-- The data step does not visit column 6. -/
theorem cellAt_placeData_six (r : Nat) : cellAt (placeData size m cw g) r 6 = cellAt g r 6 :=
  cellAt_placeData_of_notMem hodd h7 h m cw fun hmem => ((mem_zigzag hodd h7).mp hmem).1.2.2 rfl

/-- The data step completes a matrix whose column 6 is set (R262). -/
theorem placeData_sets_all (hsix : ∀ r, r < size → (cellAt g r 6).isUnset = false) :
    ∀ r c, r < size → c < size → (cellAt (placeData size m cw g) r c).isUnset = false := by
  intro r c hr hc
  by_cases h6 : c = 6
  · rw [h6, cellAt_placeData_six hodd h7 h]
    exact hsix r hr
  · exact cellAt_placeData_isUnset hodd h7 h m cw hr hc h6

end

/-- The mask functions of R290. -/
theorem maskf_iff (i j : Nat) :
    (maskf 0 i j = true ↔ (i + j) % 2 = 0) ∧ (maskf 1 i j = true ↔ i % 2 = 0) ∧ (maskf 2 i j = true ↔ j % 3 = 0) ∧
    (maskf 3 i j = true ↔ (i + j) % 3 = 0) ∧ (maskf 4 i j = true ↔ (i / 2 + j / 3) % 2 = 0) ∧
    (maskf 5 i j = true ↔ (i * j) % 2 + (i * j) % 3 = 0) ∧ (maskf 6 i j = true ↔ ((i * j) % 2 + (i * j) % 3) % 2 = 0) ∧
    (maskf 7 i j = true ↔ ((i * j) % 3 + (i + j) % 2) % 2 = 0) :=
  ⟨beq_iff_eq, beq_iff_eq, beq_iff_eq, beq_iff_eq, beq_iff_eq, beq_iff_eq, beq_iff_eq, beq_iff_eq⟩

/-- Settles O51: the order is `zigzag()`, and each of its cells takes its bit. -/
theorem mdataFillsTheUnsetCells : Obligations.MdataFillsTheUnsetCells := by
  unfold Obligations.MdataFillsTheUnsetCells
  refine ⟨fun m s order hshape hm horder => ?_, maskf_iff⟩
  obtain ⟨hlo, -, hsize, hsquare⟩ := hshape.of_valid hm
  have hodd : s.size % 2 = 1 := by rw [hsize, sideOf]; omega
  have h7 : 7 ≤ s.size := by rw [hsize, sideOf]; omega
  rw [← zigzag_eq hodd h7] at horder
  subst horder
  refine ⟨placeData s.size m s.cw s.mat, fun k hk r c hcell => ?_, fun r c hnot => ?_, exec_mdata hm m, fun hsix => ?_⟩
  · rw [cellAt_placeData_getElem hodd h7 hsquare m s.cw hk hcell, getElem?_bitStream]
    cases s.cw[k / 8]? <;> rfl
  · exact cellAt_placeData_of_notMem hodd h7 hsquare m s.cw hnot
  · rw [complete_iff (squareGrid_placeData s.size m s.cw hsquare)]
    exact ⟨hm, placeData_sets_all hodd h7 hsquare m s.cw (hsix hm)⟩

end Sys2Proof.Machine
end

section
/-! PROOFS. The matrix as the commands leave it: column 6 is set from the skeleton on (45_matrix_build.md R262), MBUILD is
the five step commands in one (R263, R264), and the words these write (R249, R254, R269). -/

namespace Sys2Proof.Machine

/-! ### Column 6 of a construction -/

/-- Column 6, which the data step skips, has no UNSET cell. -/
def SixSet (size : Nat) (g : Grid) : Prop :=
  ∀ r, r < size → (cellAt g r 6).isUnset = false

/-- `Set`s do not unset a cell. -/
theorem SixSet.placeAll {size : Nat} {g : Grid} (h6 : 6 < size) (h : squareGrid size g) (hsix : SixSet size g)
    (ps : List Placement) : SixSet size (placeAll g ps) := by
  intro r hr
  rw [cellAt_placeAll h hr h6, Cell.orElse_isUnset, hsix r hr, Bool.false_and]

theorem SixSet.placeFormat {size : Nat} {g : Grid} (h6 : 6 < size) (h : squareGrid size g) (hsix : SixSet size g)
    (w : Nat) : SixSet size (placeFormat size g w) :=
  hsix.placeAll h6 h _

theorem SixSet.placeVersion {size : Nat} {g : Grid} (h6 : 6 < size) (h : squareGrid size g) (hsix : SixSet size g)
    (w : Nat) : SixSet size (placeVersion size g w) :=
  hsix.placeAll h6 h _

theorem SixSet.placeDark {size : Nat} {g : Grid} (h6 : 6 < size) (h : squareGrid size g) (hsix : SixSet size g)
    (x : Cell) : SixSet size (placeDark size g x) :=
  hsix.placeAll h6 h [⟨size - 8, 8, x⟩]

theorem SixSet.placeData {size : Nat} {g : Grid} (hodd : size % 2 = 1) (h7 : 7 ≤ size) (h : squareGrid size g)
    (hsix : SixSet size g) (m : Fin 8) (cw : List Byte) : SixSet size (placeData size m cw g) := by
  intro r hr
  rw [cellAt_placeData_six hodd h7 h]
  exact hsix r hr

/-- Steps 1 to 3 and 5 to 7 one after the other (R263). -/
theorem buildFixed_eq (cfg : Config) (v : Nat) (lvl : Fin 4) (mask : Fin 8) (t : Bool) :
    buildFixed cfg v lvl mask t = placeDark (sideOf v)
      (if 7 ≤ v then
        placeVersion (sideOf v) (placeFormat (sideOf v) (skeleton v) (formatWord lvl mask t)) (versionWord cfg v t)
      else placeFormat (sideOf v) (skeleton v) (formatWord lvl mask t)) (darkColour cfg t) := rfl

section
variable {v : Nat} (hv1 : 1 ≤ v) (hv40 : v ≤ 40)
include hv1 hv40

/-- Finders and the timing pattern fill column 6 of every skeleton. -/
theorem sixSet_skeleton : SixSet (sideOf v) (skeleton v) := by
  intro r hr
  have h6 : 6 < sideOf v := by rw [sideOf]; omega
  rw [Cell.isUnset_eq_false_iff, ne_eq, cellAt_skeleton_eq_unset_iff hv1 hv40 hr h6, not_not]
  exact .inr (.inr (.inr (.inr (.inl rfl))))

/-- The matrix before the data step has its shape, and column 6 set. -/
theorem buildFixed_square_sixSet (cfg : Config) (lvl : Fin 4) (mask : Fin 8) (t : Bool) :
    squareGrid (sideOf v) (buildFixed cfg v lvl mask t) ∧ SixSet (sideOf v) (buildFixed cfg v lvl mask t) := by
  have h6 : 6 < sideOf v := by rw [sideOf]; omega
  have hformat := squareGrid_placeFormat (sideOf v) (formatWord lvl mask t) (squareGrid_skeleton v)
  have hformatSix := (sixSet_skeleton hv1 hv40).placeFormat h6 (squareGrid_skeleton v) (formatWord lvl mask t)
  rw [buildFixed_eq]
  split
  · have hversion := squareGrid_placeVersion (sideOf v) (versionWord cfg v t) hformat
    exact ⟨squareGrid_placeDark _ _ hversion, (hformatSix.placeVersion h6 hformat _).placeDark h6 hversion _⟩
  · exact ⟨squareGrid_placeDark _ _ hformat, hformatSix.placeDark h6 hformat _⟩

/-- R263: a build leaves no UNSET cell. -/
theorem build_sets_all (cfg : Config) (cw : List Byte) (lvl : Fin 4) (mask : Fin 8) (t : Bool) :
    ∀ r c, r < sideOf v → c < sideOf v → (cellAt (build cfg cw v lvl mask t) r c).isUnset = false := by
  obtain ⟨hsquare, hsix⟩ := buildFixed_square_sixSet hv1 hv40 cfg lvl mask t
  exact placeData_sets_all (by rw [sideOf]; omega) (by rw [sideOf]; omega) hsquare mask cw hsix

theorem sixSet_build (cfg : Config) (cw : List Byte) (lvl : Fin 4) (mask : Fin 8) (t : Bool) :
    SixSet (sideOf v) (build cfg cw v lvl mask t) :=
  fun r hr => build_sets_all hv1 hv40 cfg cw lvl mask t r 6 hr (by rw [sideOf]; omega)

end

/-! ### The build and the five steps -/

theorem exec_mbuild {v : Nat} (hv1 : 1 ≤ v) (hv40 : v ≤ 40) (t : Bool) (mask : Fin 8) (lvl : Fin 4) (s : State) :
    exec (.mbuild t mask lvl v) s = .next { s with
      mvalid := true
      ver := v
      size := 4 * v + 17
      mat := build s.cfg s.cw v lvl mask t
      result := BitVec.ofNat 32 (buildCount s.cfg v lvl mask t)
      pending := none
      started := none
      done := true } :=
  finish_matrix (requireVersion_bind hv1 hv40 _)

/-- MVERI on either side of version 7, as far as the cells go. -/
theorem exec_mveri {s : State} (hm : s.mvalid = true) (t : Bool) : ∃ w, exec (.mveri t) s = .next { s with
    mat := if 7 ≤ s.ver then placeVersion s.size s.mat (versionWord s.cfg s.ver t) else s.mat
    result := w
    pending := none
    started := none
    done := true } := by
  by_cases hv : 7 ≤ s.ver
  · exact ⟨_, by rw [exec_mveri_large hm t hv, if_pos hv]⟩
  · exact ⟨_, by rw [exec_mveri_small hm t (Nat.not_le.mp hv), if_neg hv]⟩

/-- Settles O54: the cells after the step commands are those of `build` by its definition (R263). -/
theorem mbuildEqualsTheStepSequence : Obligations.MbuildEqualsTheStepSequence := by
  unfold Obligations.MbuildEqualsTheStepSequence
  intro t mask lvl v s hv1 hv40
  refine ⟨_, _, exec_mbuild hv1 hv40 t mask lvl s, ?_, ?_⟩
  · rw [complete_iff (squareGrid_build s.cfg s.cw v lvl mask t)]
    exact ⟨rfl, build_sets_all hv1 hv40 s.cfg s.cw lvl mask t⟩
  · obtain ⟨w, hveri⟩ := exec_mveri (s := { s with
      mvalid := true
      ver := v
      size := 4 * v + 17
      mat := placeFormat (4 * v + 17) (skeleton v) (formatWord lvl mask t)
      result := BitVec.ofNat 32 (formatWord lvl mask t)
      pending := none
      started := none
      done := true }) rfl t
    refine ⟨_, _, _, _, _, exec_mskel hv1 hv40 s, exec_mfmt rfl t mask lvl, hveri, exec_mdark rfl t,
      exec_mdata rfl mask, ?_, ?_⟩
    · rw [build, buildFixed_eq, sideOf]
    · rw [buildCount, buildFixed_eq, sideOf]

/-! ### The format and version words -/

/-- Settles O55: 32 format words and 34 version words, each checked. -/
theorem codeWordsAreSystematicBch : Obligations.CodeWordsAreSystematicBch := by
  unfold Obligations.CodeWordsAreSystematicBch
  exact ⟨by decide +kernel, by decide +kernel, by decide +kernel, by decide +kernel⟩

/-! ### Column 6 and the steps -/

/-- Whatever a check answers without a fault has column 6 set. -/
def AnswersSix (r : Check State) : Prop :=
  ∀ u, r = .ok u → u.columnSixSet

/-- A next state of the outcome has column 6 set. -/
def LeavesSix (o : Host.Outcome State Fault Refusal) : Prop :=
  ∀ t, o = .next t → t.columnSixSet

theorem AnswersSix.ok {u : State} (h : u.columnSixSet) : AnswersSix (.ok u) := by
  rintro _ ⟨⟩
  exact h

theorem AnswersSix.result {s : State} (h : s.columnSixSet) (v : Nat) : AnswersSix (.ok (s.setResult v)) :=
  .ok h

theorem AnswersSix.filled {s : State} {g : Grid} (h : SixSet s.size g) (v : Nat) :
    AnswersSix (.ok ((s.setMat g).setResult v)) :=
  .ok fun _ => h

theorem AnswersSix.bind {α : Type} {x : Check α} {f : α → Check State} (h : ∀ a, x = .ok a → AnswersSix (f a)) :
    AnswersSix (x >>= f) := by
  intro u hu
  obtain ⟨a, ha, hf⟩ := check_bind_eq_ok.mp hu
  exact h a ha u hf

/-- A computation that starts a matrix, with a version that passes its check. -/
theorem AnswersSix.matrix {v : Nat} {f : Unit → Check State} (h : 1 ≤ v → v ≤ 40 → AnswersSix (f ())) :
    AnswersSix (requireVersion v >>= f) :=
  .bind fun _ hv => h (requireVersion_eq_ok hv).1 (requireVersion_eq_ok hv).2

/-- A computation that asks for a matrix, which then has its shape and an odd side past column 7. -/
theorem AnswersSix.cells {s : State} {f : Unit → Check State} (hshape : s.matrixShape) (hsix : s.columnSixSet)
    (h : s.size % 2 = 1 → 7 ≤ s.size → squareGrid s.size s.mat → SixSet s.size s.mat → AnswersSix (f ())) :
    AnswersSix (s.requireMatrix >>= f) := by
  refine .bind fun _ hreq => ?_
  have hm : s.mvalid = true := require_eq_ok.mp hreq
  obtain ⟨-, -, hsize, hsquare⟩ := hshape.of_valid hm
  rw [sideOf] at hsize
  exact h (by omega) (by omega) hsquare (hsix hm)

/-- A completion, or a fault in a state with column 6 set. -/
theorem AnswersSix.leaves {s : State} {r : Check State} (hsix : s.columnSixSet) (h : AnswersSix r) :
    LeavesSix (finish s r) := by
  intro t ht
  obtain ⟨u, hu, rfl⟩ | ⟨c, -, rfl⟩ := finish_cases ht
  · exact h u hu
  · exact hsix

/-- Column 6 after every command: a query or a buffer command leaves the matrix alone, a fill step fills, and a starter
starts from a skeleton or a build. -/
theorem exec_leavesSix {s : State} (hshape : s.matrixShape) (hsix : s.columnSixSet) (i : Instr) :
    LeavesSix (exec i s) := by
  cases i with
  | nop => exact AnswersSix.leaves hsix (.ok hsix)
  | cclr => exact AnswersSix.leaves hsix (.ok (u := s.setCw []) hsix)
  | gexp | clen => exact AnswersSix.leaves hsix (.result hsix _)
  | pclr | glog | gmul | plen | crd | cpush => exact AnswersSix.leaves hsix (.bind fun _ _ => .ok hsix)
  | prd | mrd | mbsize | ppush | pgen | cpushp | mpen =>
    exact AnswersSix.leaves hsix (.bind fun _ _ => .bind fun _ _ => .ok hsix)
  | mctx | mbrd | pnorm | rsec =>
    exact AnswersSix.leaves hsix (.bind fun _ _ => .bind fun _ _ => .bind fun _ _ => .ok hsix)
  | pmul | pmod =>
    exact AnswersSix.leaves hsix (.bind fun _ _ => .bind fun _ _ => .bind fun _ _ => .bind fun _ _ => .bind fun _ _ =>
      .bind fun _ _ => .ok hsix)
  | mskel =>
    exact AnswersSix.leaves hsix (.matrix fun hv1 hv40 => .ok fun _ => sixSet_skeleton hv1 hv40)
  | mbuild | msel | mauto =>
    exact AnswersSix.leaves hsix (.matrix fun hv1 hv40 => .ok fun _ => sixSet_build hv1 hv40 _ _ _ _ _)
  | mfmt =>
    exact AnswersSix.leaves hsix (.cells hshape hsix fun _ h7 hsquare hset => .filled
      (hset.placeFormat h7 hsquare _) _)
  | mveri =>
    refine AnswersSix.leaves hsix (.cells hshape hsix fun _ h7 hsquare hset => ?_)
    split
    · exact .ok hsix
    · exact .filled (hset.placeVersion h7 hsquare _) _
  | mdark =>
    exact AnswersSix.leaves hsix (.cells hshape hsix fun _ h7 hsquare hset => .filled (hset.placeDark h7 hsquare _) _)
  | mdata =>
    exact AnswersSix.leaves hsix (.cells hshape hsix fun hodd h7 hsquare hset => .filled
      (hset.placeData hodd h7 hsquare _ _) _)

theorem engineTurn_leavesSix {s : State} (hshape : s.matrixShape) (hsix : s.columnSixSet) :
    LeavesSix (engineTurn s) := by
  intro t ht
  obtain rfl | ⟨w, -, hw⟩ := engineTurn_cases ht
  · exact hsix
  · obtain ⟨-, rfl⟩ | ⟨i, -, hi⟩ := executeWord_cases hw
    · exact hsix
    · exact exec_leavesSix hshape hsix i t hi

/-- A state without a matrix, such as a reset one. -/
theorem State.columnSixSet_of_invalid {s : State} (h : s.mvalid = false) : s.columnSixSet :=
  fun hm => absurd (h.symm.trans hm) Bool.false_ne_true

theorem State.columnSixSet.driveReset {s : State} (hsix : s.columnSixSet) (b : Bool) :
    (s.driveReset b).columnSixSet := by
  obtain hreset | ⟨hkeep, -, -⟩ := s.driveReset_cases b
  · rw [hreset]
    exact State.columnSixSet_of_invalid rfl
  · rwa [hkeep]

theorem State.columnSixSet.start {s : State} (hsix : s.columnSixSet) : s.start.columnSixSet := by
  rw [s.start_frame]
  exact hsix

/-- No access writes a cell; a soft reset discards the matrix. -/
theorem State.columnSixSet.hostAccess {s : State} (hsix : s.columnSixSet) (a : Access) :
    (s.hostAccess a).columnSixSet := by
  obtain ⟨d, hread⟩ | hnothing | ⟨-, w, hissue | hstatus | hctrl⟩ := s.hostAccess_cases a
  · rw [hread]; exact hsix
  · rwa [hnothing]
  · rw [hissue]
    cases hp : s.pending with
    | none => rw [s.issue_idle w hp]; exact hsix
    | some v => rw [s.issue_busy v w hp]; exact hsix
  · rw [hstatus]; exact hsix
  · rw [hctrl]
    cases hw : w.getLsbD 1 with
    | true => rw [s.writeCtrl_softReset w hw]; exact State.columnSixSet_of_invalid rfl
    | false => rw [s.writeCtrl_plain w hw]; exact hsix

/-- Settles O20: each event of `step_cases` leaves column 6 set. -/
theorem columnSixStaysSet : Obligations.ColumnSixStaysSet := by
  unfold Obligations.ColumnSixStaysSet
  intro s t hshape hsix hstep
  obtain ⟨-, hturn⟩ | ⟨e, rest, -, ⟨a, -, rfl⟩ | ⟨b, -, rfl⟩ | ⟨-, rfl⟩ | ⟨-, hturn⟩⟩ := step_cases hstep
  · exact engineTurn_leavesSix hshape hsix t hturn
  · exact State.columnSixSet.hostAccess (s := { s with inputs := rest }) hsix a
  · exact State.columnSixSet.driveReset (s := { s with inputs := rest }) hsix b
  · exact State.columnSixSet.start (s := { s with inputs := rest }) hsix
  · exact engineTurn_leavesSix (s := { s with inputs := rest }) hshape hsix t hturn

end Sys2Proof.Machine
end

section
/-! PROOFS. The penalties (46_mask_eval.md R292 to R298): every line of the matrix by its own index, and on each line the
runs, the blocks and the windows as the rules count them. -/

namespace Sys2Proof.Machine

/-! ### Sums over lists of cells -/

/-- A list given by the indices of its entries, summed. -/
theorem sum_map_range (f : Nat → Nat) (n : Nat) : ((List.range n).map f).sum = ∑ i ∈ Finset.range n, f i := rfl

/-- A list given by indices from 0 on, cut after its first entry. -/
theorem map_range_succ {α : Type} (f : Nat → α) (n : Nat) :
    (List.range (n + 1)).map f = f 0 :: (List.range n).map fun i => f (i + 1) := by
  rw [List.range_succ_eq_map, List.map_cons, List.map_map]
  rfl

/-- The number of pairs with a property, counted row by row. -/
theorem card_filter_pairs (m n : Nat) (p : Nat × Nat → Prop) [DecidablePred p] :
    ((Finset.range m ×ˢ Finset.range n).filter p).card =
      ∑ i ∈ Finset.range m, ∑ j ∈ Finset.range n, if p (i, j) then 1 else 0 := by
  rw [Finset.card_filter, Finset.sum_product]

theorem card_filter_pairs_le (m n : Nat) (p : Nat × Nat → Prop) [DecidablePred p] :
    ((Finset.range m ×ˢ Finset.range n).filter p).card ≤ m * n :=
  (Finset.card_filter_le _ _).trans_eq (by rw [Finset.card_product, Finset.card_range, Finset.card_range])

/-! ### The lines of a matrix -/

theorem Cell.isDark_eq_beq (x : Cell) : x.isDark = (x == .dark) := by
  cases x <;> rfl

theorem Cell.ofBool_of_isDark {x : Cell} (h : x.isUnset = false) : Cell.ofBool x.isDark = x := by
  cases x with
  | unset => cases h
  | light | dark => rfl

/-- Two set cells have one colour exactly when they are equal. -/
theorem Cell.isDark_inj {x y : Cell} (hx : x.isUnset = false) (hy : y.isUnset = false) :
    x.isDark = y.isDark ↔ x = y :=
  ⟨fun h => by rw [← Cell.ofBool_of_isDark hx, h, Cell.ofBool_of_isDark hy], congrArg _⟩

section
variable {size : Nat} {g : Grid}

theorem lineDark_row {r : Nat} (hr : r < size) (c : Nat) : lineDark size g r c = (cellAt g r c).isDark := by
  rw [lineDark, if_pos hr, Cell.isDark_eq_beq]

theorem lineDark_column (r c : Nat) : lineDark size g (size + c) r = (cellAt g r c).isDark := by
  rw [lineDark, if_neg (by omega), Nat.add_sub_cancel_left, Cell.isDark_eq_beq]

/-- The cells of line `l` (R292). -/
def lineCells (size : Nat) (g : Grid) (l : Nat) : List Bool :=
  (List.range size).map (lineDark size g l)

/-- The first lines are the rows. -/
theorem colours_eq (h : squareGrid size g) : colours g = (List.range size).map (lineCells size g) := by
  obtain ⟨hlen, hrows⟩ := h
  refine List.ext_getElem (by simp [colours, hlen]) fun r hr _ => ?_
  have hr : r < g.length := by simpa [colours] using hr
  have hrow : g[r].length = size := hrows _ (List.getElem_mem hr)
  refine List.ext_getElem (by simp [colours, rowColours, lineCells, hrow]) fun c hc _ => ?_
  have hc : c < g[r].length := by simpa [colours, rowColours] using hc
  simp [colours, rowColours, lineCells, lineDark_row (hlen ▸ hr), cellAt, hr, hc]

theorem linesOf_colours (h : squareGrid size g) :
    linesOf size (colours g) = (List.range (2 * size)).map (lineCells size g) := by
  have hcolumn : ∀ c < size, columnOf (colours g) c = lineCells size g (size + c) := by
    intro c hc
    rw [columnOf, colours_eq h, List.map_map]
    refine List.map_congr_left fun r hr => ?_
    rw [lineDark_column, ← lineDark_row (List.mem_range.mp hr)]
    simp [lineCells, hc]
  rw [linesOf, Nat.two_mul, List.range_add, List.map_append, List.map_map, ← colours_eq h]
  exact congrArg _ (List.map_congr_left fun c hc => hcolumn c (List.mem_range.mp hc))

end

/-! ### Runs (R293) -/

/-- What the maximal runs that start at cell `a` of line `l` add. -/
def runsAt (size : Nat) (g : Grid) (l a : Nat) : Nat :=
  ∑ len ∈ Finset.range (size + 1), if 5 ≤ len ∧ maximalRun size g l a len then len - 2 else 0

section
variable {size : Nat} {g : Grid} {l a len : Nat}

theorem maximalRun_iff : maximalRun size g l a len = true ↔
    a + len ≤ size ∧ (∀ k < len, lineDark size g l (a + k) = lineDark size g l a) ∧
    (a = 0 ∨ lineDark size g l (a - 1) ≠ lineDark size g l a) ∧
    (a + len = size ∨ lineDark size g l (a + len) ≠ lineDark size g l a) :=
  decide_eq_true_iff

/-- A maximal run does not end before another one from the same start. -/
theorem maximalRun_le {k : Nat} (h : maximalRun size g l a len = true) (hk : maximalRun size g l a k = true) :
    k ≤ len := by
  obtain ⟨-, -, -, hend⟩ := maximalRun_iff.mp h
  obtain ⟨hin, hsame, -, -⟩ := maximalRun_iff.mp hk
  by_contra hlt
  obtain hend | hend := hend
  · omega
  · exact hend (hsame len (by omega))

theorem runsAt_of_run (h : maximalRun size g l a len = true) : runsAt size g l a = runPenalty len := by
  have hlen : len ∈ Finset.range (size + 1) := by
    have hin := (maximalRun_iff.mp h).1
    rw [Finset.mem_range]
    omega
  rw [runsAt, Finset.sum_eq_single_of_mem len hlen]
  · simp only [h, and_true, runPenalty]
  · exact fun k _ hne => if_neg fun hk => hne (Nat.le_antisymm (maximalRun_le h hk.2) (maximalRun_le hk.2 h))

/-- No run starts inside another. -/
theorem runsAt_of_same (ha : a ≠ 0) (h : lineDark size g l (a - 1) = lineDark size g l a) : runsAt size g l a = 0 := by
  refine Finset.sum_eq_zero fun len _ => if_neg fun hrun => ?_
  obtain ⟨-, -, hstart, -⟩ := maximalRun_iff.mp hrun.2
  exact hstart.elim ha (absurd h)

/-- The cells of one run add what the run adds. -/
theorem sum_runsAt_of_run (h : maximalRun size g l a (len + 1) = true) :
    ∑ i ∈ Finset.Ico a (a + (len + 1)), runsAt size g l i = runPenalty (len + 1) := by
  obtain ⟨-, hsame, -, -⟩ := maximalRun_iff.mp h
  have hinside : ∀ i ∈ Finset.range len, runsAt size g l (a + (i + 1)) = 0 := by
    intro i hi
    have hi := Finset.mem_range.mp hi
    exact runsAt_of_same (by omega) ((hsame i (by omega)).trans (hsame (i + 1) (by omega)).symm)
  rw [Finset.sum_Ico_eq_sum_range, Nat.add_sub_cancel_left, Finset.sum_range_succ', Finset.sum_eq_zero hinside,
    Nat.zero_add, Nat.add_zero, runsAt_of_run h]

/-- The runs of a line from cell `a` on, where a run starts that has `len + 1` cells so far. -/
theorem sum_runsFrom {rest : Nat} (hn : a + (len + 1) + rest = size)
    (hstart : a = 0 ∨ lineDark size g l (a - 1) ≠ lineDark size g l a)
    (hsame : ∀ k < len + 1, lineDark size g l (a + k) = lineDark size g l a) :
    ((runsFrom (lineDark size g l a) (len + 1)
      ((List.range' (a + (len + 1)) rest).map (lineDark size g l))).map runPenalty).sum =
      ∑ i ∈ Finset.Ico a size, runsAt size g l i := by
  induction rest generalizing a len with
  | zero =>
    have hrun := maximalRun_iff.mpr ⟨by omega, hsame, hstart, .inl hn⟩
    rw [← hn, Nat.add_zero, sum_runsAt_of_run (hn ▸ hrun)]
    rfl
  | succ rest ih =>
    rw [List.range'_succ, List.map_cons, runsFrom]
    split
    · rename_i hnext
      refine ih (len := len + 1) (by omega) hstart fun k hk => ?_
      obtain hk | rfl := Nat.lt_succ_iff_lt_or_eq.mp hk
      · exact hsame k hk
      · exact hnext
    · rename_i hnext
      have hrun := maximalRun_iff.mpr ⟨by omega, hsame, hstart, .inr hnext⟩
      have hnew : lineDark size g l (a + (len + 1) - 1) ≠ lineDark size g l (a + (len + 1)) :=
        (hsame len (by omega)).trans_ne (Ne.symm hnext)
      have htail := ih (a := a + (len + 1)) (len := 0) (by omega) (.inr hnew) fun k hk => by
        rw [Nat.lt_one_iff.mp hk, Nat.add_zero]
      rw [List.map_cons, List.sum_cons, htail, ← sum_runsAt_of_run hrun,
        Finset.sum_Ico_consecutive _ (by omega) (by omega)]

end

/-- A line's runs, each by its start. -/
theorem sum_runLengths (size : Nat) (g : Grid) (l : Nat) :
    ((runLengths (lineCells size g l)).map runPenalty).sum = ∑ a ∈ Finset.range size, runsAt size g l a := by
  cases size with
  | zero => rfl
  | succ n =>
    rw [lineCells, List.range_eq_range', List.range'_succ, Finset.range_eq_Ico]
    exact sum_runsFrom (Nat.add_comm _ _) (.inl rfl) fun k hk => by rw [Nat.lt_one_iff.mp hk]

/-- The runs of `n` and more cells add two less than the cells they have. -/
theorem sum_runsFrom_le (l : List Bool) : ∀ (c : Bool) (n : Nat),
    ((runsFrom c n l).map runPenalty).sum ≤ n + l.length - 2 := by
  have hrun : ∀ n, runPenalty n ≤ n - 2 := by
    intro n
    unfold runPenalty
    split <;> omega
  induction l with
  | nil => exact fun c n => hrun n
  | cons x xs ih =>
    intro c n
    rw [runsFrom, List.length_cons]
    split
    · have := ih c (n + 1)
      omega
    · have := ih x 1
      have := hrun n
      rw [List.map_cons, List.sum_cons]
      omega

theorem sum_runLengths_le (l : List Bool) : ((runLengths l).map runPenalty).sum ≤ l.length - 2 := by
  cases l with
  | nil => exact Nat.zero_le _
  | cons x xs =>
    rw [List.length_cons, Nat.add_comm]
    exact sum_runsFrom_le xs x 1

section
variable {size : Nat} {g : Grid} (h : squareGrid size g)
include h

theorem p1_colours : p1 size (colours g) =
    ∑ l ∈ Finset.range (2 * size), ∑ a ∈ Finset.range size, runsAt size g l a := by
  rw [p1, linesOf_colours h, List.map_map, sum_map_range]
  exact Finset.sum_congr rfl fun l _ => sum_runLengths size g l

theorem p1_colours_le : p1 size (colours g) ≤ 2 * size * (size - 2) := by
  rw [p1, linesOf_colours h, List.map_map, sum_map_range]
  refine (Finset.sum_le_card_nsmul _ _ (size - 2) fun l _ => ?_).trans_eq (by simp)
  simpa [lineCells] using sum_runLengths_le (lineCells size g l)

end

/-! ### Blocks (R294) -/

theorem rowBlocks_map_range (a b : Nat → Bool) (n : Nat) :
    rowBlocks ((List.range n).map a) ((List.range n).map b) =
      ∑ c ∈ Finset.range (n - 1), bit (a c == a (c + 1) && a c == b c && a c == b (c + 1)) := by
  induction n generalizing a b with
  | zero => rfl
  | succ n ih =>
    cases n with
    | zero => rfl
    | succ n =>
      have htail := ih (fun i => a (i + 1)) (fun i => b (i + 1))
      rw [map_range_succ a, map_range_succ b]
      rw [Nat.add_sub_cancel] at htail ⊢
      rw [Finset.sum_range_succ', ← htail, map_range_succ, map_range_succ]
      exact Nat.add_comm _ _

theorem blockCount_map_range (rows : Nat → List Bool) (n : Nat) :
    blockCount ((List.range n).map rows) = ∑ r ∈ Finset.range (n - 1), rowBlocks (rows r) (rows (r + 1)) := by
  induction n generalizing rows with
  | zero => rfl
  | succ n ih =>
    cases n with
    | zero => rfl
    | succ n =>
      have htail := ih (fun i => rows (i + 1))
      rw [map_range_succ rows]
      rw [Nat.add_sub_cancel] at htail ⊢
      rw [Finset.sum_range_succ', ← htail, map_range_succ]
      exact Nat.add_comm _ _

/-! ### Finder-like windows (R295) -/

theorem finderWindows_eq (l : List Bool) : finderWindows l =
    ∑ s ∈ Finset.range l.length, bit (patA.isPrefixOf (l.drop s) || patB.isPrefixOf (l.drop s)) := by
  induction l with
  | nil => rfl
  | cons x xs ih =>
    rw [finderWindows, ih, List.length_cons, Finset.sum_range_succ', Nat.add_comm]
    rfl

theorem patA_eq : patA = [1, 0, 1, 1, 1, 0, 1, 0, 0, 0, 0].map (· == 1) := rfl

theorem patB_eq : patB = [0, 0, 0, 0, 1, 0, 1, 1, 1, 0, 1].map (· == 1) := rfl

/-- A pattern stands at a cell when its eleven cells lie in the line and are those of the window. -/
theorem isPrefixOf_drop_iff (size : Nat) (g : Grid) (l a : Nat) {pat : List Nat} (hpat : pat.length = 11) :
    (pat.map (· == 1)).isPrefixOf ((lineCells size g l).drop a) = true ↔
      a + 11 ≤ size ∧ windowAt size g l a pat = true := by
  rw [List.isPrefixOf_iff_prefix, List.prefix_iff_getElem]
  simp only [lineCells, List.length_map, List.length_drop, List.length_range, List.getElem_drop, List.getElem_map,
    List.getElem_range, hpat, windowAt, List.all_eq_true, List.mem_range, beq_iff_eq]
  refine exists_prop.trans (and_congr (by omega) (forall₂_congr fun k hk => ?_))
  rw [List.getD_eq_getElem _ _ (hpat ▸ hk), eq_comm]

/-- One of the two patterns stands at cell `a` of line `l`. -/
abbrev FinderLikeAt (size : Nat) (g : Grid) (l a : Nat) : Prop :=
  windowAt size g l a [1, 0, 1, 1, 1, 0, 1, 0, 0, 0, 0] ∨ windowAt size g l a [0, 0, 0, 0, 1, 0, 1, 1, 1, 0, 1]

theorem finderWindows_lineCells (size : Nat) (g : Grid) (l : Nat) : finderWindows (lineCells size g l) =
    ∑ a ∈ Finset.range (size - 10), if FinderLikeAt size g l a then 1 else 0 := by
  have hat : ∀ a, (patA.isPrefixOf ((lineCells size g l).drop a) ||
      patB.isPrefixOf ((lineCells size g l).drop a)) = true ↔ a + 11 ≤ size ∧ FinderLikeAt size g l a := by
    intro a
    rw [Bool.or_eq_true, patA_eq, patB_eq, isPrefixOf_drop_iff size g l a rfl, isPrefixOf_drop_iff size g l a rfl,
      ← and_or_left]
  rw [finderWindows_eq, lineCells, List.length_map, List.length_range, ← lineCells]
  refine (Finset.sum_subset (Finset.range_mono (Nat.sub_le size 10)) fun a _ hlate => if_neg fun hwindow => ?_).symm.trans
    (Finset.sum_congr rfl fun a ha => if_congr ?_ rfl rfl)
  · rw [hat] at hwindow
    rw [Finset.mem_range] at hlate
    omega
  · rw [Finset.mem_range] at ha
    rw [hat, and_iff_right (by omega)]

section
variable {size : Nat} {g : Grid} (h : squareGrid size g)
include h

theorem p3_colours : p3 size (colours g) = 40 *
    ((Finset.range (2 * size) ×ˢ Finset.range (size - 10)).filter fun p => FinderLikeAt size g p.1 p.2).card := by
  rw [p3, linesOf_colours h, List.map_map, sum_map_range, card_filter_pairs]
  exact congrArg _ (Finset.sum_congr rfl fun l _ => finderWindows_lineCells size g l)

theorem p3_colours_le : p3 size (colours g) ≤ 40 * (2 * size * (size - 10)) := by
  rw [p3_colours h]
  exact Nat.mul_le_mul_left 40 (card_filter_pairs_le _ _ _)

/-- On a matrix without UNSET cells two cells have one colour exactly when they are equal. -/
theorem p2_colours (hset : ∀ r c, r < size → c < size → (cellAt g r c).isUnset = false) : p2 (colours g) = 3 *
    ((Finset.range (size - 1) ×ˢ Finset.range (size - 1)).filter fun p =>
      cellAt g p.1 p.2 = cellAt g p.1 (p.2 + 1) ∧ cellAt g p.1 p.2 = cellAt g (p.1 + 1) p.2 ∧
      cellAt g p.1 p.2 = cellAt g (p.1 + 1) (p.2 + 1)).card := by
  have hcolour : ∀ {r c r' c' : Nat}, r < size → c < size → r' < size → c' < size →
      ((cellAt g r c).isDark = (cellAt g r' c').isDark ↔ cellAt g r c = cellAt g r' c') :=
    fun hr hc hr' hc' => Cell.isDark_inj (hset _ _ hr hc) (hset _ _ hr' hc')
  rw [p2, colours_eq h, blockCount_map_range, card_filter_pairs]
  refine congrArg _ (Finset.sum_congr rfl fun r hr => ?_)
  have hr := Finset.mem_range.mp hr
  rw [lineCells, lineCells, rowBlocks_map_range]
  refine Finset.sum_congr rfl fun c hc => if_congr ?_ rfl rfl
  have hc := Finset.mem_range.mp hc
  have hr0 : r < size := by omega
  have hr1 : r + 1 < size := by omega
  have hc0 : c < size := by omega
  have hc1 : c + 1 < size := by omega
  simp only [Bool.and_eq_true, beq_iff_eq, and_assoc, lineDark_row, hcolour, hr0, hr1, hc0, hc1]

theorem p2_colours_le (hset : ∀ r c, r < size → c < size → (cellAt g r c).isUnset = false) :
    p2 (colours g) ≤ 3 * ((size - 1) * (size - 1)) := by
  rw [p2_colours h hset]
  exact Nat.mul_le_mul_left 3 (card_filter_pairs_le _ _ _)

end

/-! ### The dark ratio (R296) -/

theorem p4_eq (size : Nat) (m : List (List Bool)) :
    p4 size m = 10 * (((20 : Int) * darkCount m - 10 * size ^ 2).natAbs / size ^ 2) := by
  rw [p4, ← Nat.pow_two, Nat.cast_pow]

section
variable {size : Nat} {g : Grid} (h : squareGrid size g)
include h

theorem darkCount_colours : darkCount (colours g) =
    ((Finset.range size ×ˢ Finset.range size).filter fun p => cellAt g p.1 p.2 = .dark).card := by
  rw [darkCount, colours_eq h, List.map_map, sum_map_range, card_filter_pairs]
  refine Finset.sum_congr rfl fun r hr => ?_
  rw [← Finset.card_filter, Function.comp_apply, lineCells, List.count, List.countP_map, ← Nat.count_eq_card_filter_range,
    Nat.count]
  refine List.countP_congr fun c _ => ?_
  simp [lineDark_row (Finset.mem_range.mp hr), Cell.isDark_eq_beq]

theorem p4_colours_le : p4 size (colours g) ≤ 100 := by
  have hdark : darkCount (colours g) ≤ size ^ 2 := by
    rw [darkCount_colours h, Nat.pow_two]
    exact card_filter_pairs_le _ _ _
  rw [p4_eq, ← Nat.cast_pow]
  exact Nat.mul_le_mul_left (m := 10) 10 (Nat.div_le_of_le_mul (by omega))

end

/-! ### MPEN -/

theorem exec_mpen {s : State} (hm : s.mvalid = true) (hc : s.complete = true) : exec .mpen s = .next { s with
    pen1 := BitVec.ofNat 32 (score s.size s.mat).q1
    pen2 := BitVec.ofNat 32 (score s.size s.mat).q2
    pen3 := BitVec.ofNat 32 (score s.size s.mat).q3
    pen4 := BitVec.ofNat 32 (score s.size s.mat).q4
    pent := BitVec.ofNat 32 (score s.size s.mat).total
    result := BitVec.ofNat 32 (score s.size s.mat).total
    pending := none
    started := none
    done := true } := by
  have hcheck : (s.requireMatrix >>= fun _ => s.requireComplete >>= fun _ =>
      pure ((s.setScore (score s.size s.mat)).setResult (score s.size s.mat).total)) =
      Except.ok ((s.setScore (score s.size s.mat)).setResult (score s.size s.mat).total) := by
    rw [State.requireMatrix_bind hm, State.requireComplete, hc]
    rfl
  exact congrArg (finish s) hcheck

/-- Settles O56: each penalty of the model is the rule's own sum or count (`p1_colours`, `p2_colours`, `p3_colours`,
`p4_eq` with `darkCount_colours`), and a matrix has at most 177 rows. -/
theorem mpenScoresTheMatrix : Obligations.MpenScoresTheMatrix := by
  unfold Obligations.MpenScoresTheMatrix
  intro s q1 q2 q3 q4 d hshape hcomplete hq1 hq2 hq3 hd hq4
  have hm : s.mvalid = true := (Bool.and_eq_true_iff.mp hcomplete).1
  obtain ⟨-, hv40, hsize, hsquare⟩ := hshape.of_valid hm
  have hset := ((complete_iff hsquare).mp hcomplete).2
  have hside : s.size ≤ 177 := by rw [hsize, sideOf]; omega
  obtain rfl : q1 = p1 s.size (colours s.mat) := hq1.trans (p1_colours hsquare).symm
  obtain rfl : q2 = p2 (colours s.mat) := hq2.trans (p2_colours hsquare hset).symm
  obtain rfl : q3 = p3 s.size (colours s.mat) := hq3.trans (p3_colours hsquare).symm
  obtain rfl : d = darkCount (colours s.mat) := hd.trans (darkCount_colours hsquare).symm
  obtain rfl : q4 = p4 s.size (colours s.mat) := hq4.trans (p4_eq s.size _).symm
  refine ⟨(p1_colours_le hsquare).trans ?_, (p2_colours_le hsquare hset).trans ?_, (p3_colours_le hsquare).trans ?_,
    p4_colours_le hsquare, exec_mpen hm hcomplete⟩
  · exact Nat.mul_le_mul (Nat.mul_le_mul_left 2 hside) (Nat.sub_le_sub_right hside 2)
  · exact Nat.mul_le_mul_left 3 (Nat.mul_le_mul (Nat.sub_le_sub_right hside 1) (Nat.sub_le_sub_right hside 1))
  · exact Nat.mul_le_mul_left 40 (Nat.mul_le_mul (Nat.mul_le_mul_left 2 hside) (Nat.sub_le_sub_right hside 10))

end Sys2Proof.Machine
end

section
/-! PROOFS. Mask selection (46_mask_eval.md R299, R302, R303): the fold over the eight masks keeps the lowest of the masks
seen so far, and MAUTO is MSEL's state with the winner's build. -/

namespace Sys2Proof.Machine

/-! ### The lowest total -/

/-- `best` is a mask below `k` with its score, no mask below `k` has a lower total, and none below `best` ties with it. -/
def LowestBelow (scores : Fin 8 → Score) (k : Nat) (best : Fin 8 × Score) : Prop :=
  best.1.val < k ∧ best.2 = scores best.1 ∧
    ∀ m : Fin 8, m.val < k → best.2.total ≤ (scores m).total ∧ (m < best.1 → best.2.total < (scores m).total)

theorem LowestBelow.first (scores : Fin 8 → Score) : LowestBelow scores 1 (0, scores 0) := by
  refine ⟨Nat.zero_lt_one, rfl, fun m hm => ?_⟩
  obtain rfl : m = 0 := Fin.ext (by omega)
  exact ⟨Nat.le_refl _, fun h => absurd h (Nat.lt_irrefl _)⟩

/-- One turn of the selection, with the next mask. -/
theorem LowestBelow.turn {scores : Fin 8 → Score} {m : Fin 8} {best : Fin 8 × Score}
    (h : LowestBelow scores m.val best) : LowestBelow scores (m.val + 1) (better best m (scores m)) := by
  obtain ⟨hbelow, hscore, hlowest⟩ := h
  unfold better
  split
  · rename_i hlt
    refine ⟨Nat.lt_succ_self _, rfl, fun j hj => ?_⟩
    obtain hj | rfl : j.val < m.val ∨ j = m := by rw [Fin.ext_iff]; omega
    · have hlt' := Nat.lt_of_lt_of_le hlt (hlowest j hj).1
      exact ⟨Nat.le_of_lt hlt', fun _ => hlt'⟩
    · exact ⟨Nat.le_refl _, fun h => absurd h (Nat.lt_irrefl _)⟩
  · rename_i hge
    refine ⟨Nat.lt_succ_of_lt hbelow, hscore, fun j hj => ?_⟩
    obtain hj | rfl : j.val < m.val ∨ j = m := by rw [Fin.ext_iff]; omega
    · exact hlowest j hj
    · exact ⟨Nat.not_lt.mp hge, fun h => absurd (Nat.lt_trans hbelow h) (Nat.lt_irrefl _)⟩

/-- The turns with the masks from `k` on, in increasing order. -/
theorem LowestBelow.fold {scores : Fin 8 → Score} {ms : List (Fin 8)} {k : Nat} {best : Fin 8 × Score}
    (h : LowestBelow scores k best) (hms : ms.map Fin.val = List.range' k ms.length) :
    LowestBelow scores (k + ms.length) (ms.foldl (fun best m => better best m (scores m)) best) := by
  induction ms generalizing k best with
  | nil => exact h
  | cons m ms ih =>
    rw [List.map_cons, List.length_cons, List.range'_succ, List.cons.injEq] at hms
    obtain ⟨rfl, hms⟩ := hms
    rw [List.length_cons, Nat.add_comm ms.length, ← Nat.add_assoc]
    exact ih h.turn hms

/-- R299: the selection holds the lowest of all eight trials. -/
theorem select_lowest (cfg : Config) (cw : List Byte) (v : Nat) (lvl : Fin 4) :
    LowestBelow (trial cfg cw v lvl) 8 (select cfg cw v lvl) :=
  (LowestBelow.first _).fold (ms := [1, 2, 3, 4, 5, 6, 7]) (by decide)

/-! ### The level -/

/-- R265: a test build's format word is 0 at every level. -/
theorem build_test_level (cfg : Config) (cw : List Byte) (v : Nat) (lvl lvl' : Fin 4) (mask : Fin 8) :
    build cfg cw v lvl mask true = build cfg cw v lvl' mask true := by
  simp only [build, buildFixed_eq, formatWord_eq, if_true]

theorem select_level (cfg : Config) (cw : List Byte) (v : Nat) (lvl lvl' : Fin 4) :
    select cfg cw v lvl = select cfg cw v lvl' := by
  have htrial : trial cfg cw v lvl = trial cfg cw v lvl' := by
    funext m
    rw [trial, trial, build_test_level cfg cw v lvl lvl' m]
  rw [select, select, htrial]

/-! ### The commands -/

/-- A computation that starts a matrix, scores and answers a number completes with these and writes nothing else. -/
theorem finish_scored {s : State} {r : Check State} {v n : Nat} {g : Grid} {q : Score}
    (h : r = .ok (((s.startMatrix v g).setScore q).setResult n)) :
    finish s r = .next { s with
      mvalid := true
      ver := v
      size := 4 * v + 17
      mat := g
      pen1 := BitVec.ofNat 32 q.q1
      pen2 := BitVec.ofNat 32 q.q2
      pen3 := BitVec.ofNat 32 q.q3
      pen4 := BitVec.ofNat 32 q.q4
      pent := BitVec.ofNat 32 q.total
      result := BitVec.ofNat 32 n
      pending := none
      started := none
      done := true } := by
  rw [h]
  rfl

theorem exec_msel {v : Nat} (hv1 : 1 ≤ v) (hv40 : v ≤ 40) (lvl : Fin 4) (s : State) :
    exec (.msel lvl v) s = .next { s with
      mvalid := true
      ver := v
      size := 4 * v + 17
      mat := build s.cfg s.cw v lvl 7 true
      pen1 := BitVec.ofNat 32 (select s.cfg s.cw v lvl).2.q1
      pen2 := BitVec.ofNat 32 (select s.cfg s.cw v lvl).2.q2
      pen3 := BitVec.ofNat 32 (select s.cfg s.cw v lvl).2.q3
      pen4 := BitVec.ofNat 32 (select s.cfg s.cw v lvl).2.q4
      pent := BitVec.ofNat 32 (select s.cfg s.cw v lvl).2.total
      result := BitVec.ofNat 32 (select s.cfg s.cw v lvl).1.val
      pending := none
      started := none
      done := true } :=
  finish_scored (requireVersion_bind hv1 hv40 _)

theorem exec_mauto {v : Nat} (hv1 : 1 ≤ v) (hv40 : v ≤ 40) (lvl : Fin 4) (s : State) :
    exec (.mauto lvl v) s = .next { s with
      mvalid := true
      ver := v
      size := 4 * v + 17
      mat := build s.cfg s.cw v lvl (select s.cfg s.cw v lvl).1 false
      pen1 := BitVec.ofNat 32 (select s.cfg s.cw v lvl).2.q1
      pen2 := BitVec.ofNat 32 (select s.cfg s.cw v lvl).2.q2
      pen3 := BitVec.ofNat 32 (select s.cfg s.cw v lvl).2.q3
      pen4 := BitVec.ofNat 32 (select s.cfg s.cw v lvl).2.q4
      pent := BitVec.ofNat 32 (select s.cfg s.cw v lvl).2.total
      result := BitVec.ofNat 32 (select s.cfg s.cw v lvl).1.val
      pending := none
      started := none
      done := true } :=
  finish_scored (requireVersion_bind hv1 hv40 _)

/-- The level makes no difference to MSEL, whatever the version. -/
theorem exec_msel_level (lvl lvl' : Fin 4) (v : Nat) (s : State) : exec (.msel lvl v) s = exec (.msel lvl' v) s := by
  change execMsel lvl v s = execMsel lvl' v s
  rw [execMsel, execMsel, select_level s.cfg s.cw v lvl lvl', build_test_level s.cfg s.cw v lvl lvl' 7]

/-- Settles O57: after its eight turns the selection holds the lowest of all masks. -/
theorem mselPicksTheLowestPenalty : Obligations.MselPicksTheLowestPenalty := by
  unfold Obligations.MselPicksTheLowestPenalty
  refine ⟨fun lvl v s hv1 hv40 => ?_, exec_msel_level⟩
  obtain ⟨-, hscore, hlowest⟩ := select_lowest s.cfg s.cw v lvl
  exact ⟨_, _, hscore, fun m => (hlowest m m.isLt).1, fun m => (hlowest m m.isLt).2, exec_msel hv1 hv40 lvl s⟩

/-- Settles O58: MSEL leaves the build's inputs, the codewords and the configuration, as they were. -/
theorem mautoIsSelectionThenBuild : Obligations.MautoIsSelectionThenBuild := by
  unfold Obligations.MautoIsSelectionThenBuild
  intro lvl v s hv1 hv40
  exact ⟨(select s.cfg s.cw v lvl).1, _, _, exec_msel hv1 hv40 lvl s, rfl,
    exec_mbuild hv1 hv40 false (select s.cfg s.cw v lvl).1 lvl _, exec_mauto hv1 hv40 lvl s⟩

end Sys2Proof.Machine
end

section
/-! PROOFS. Matrix queries (47_matrix_query.md R320 to R328): each query answers a number for RESULT and nothing else, and a
complete matrix has no UNSET cell for a fill step to write. -/

namespace Sys2Proof.Machine

/-! ### The queries write RESULT alone -/

/-- Whatever the check answers without a fault is `s` with a number in RESULT. -/
def AnswersResult (s : State) (r : Check State) : Prop :=
  ∀ u, r = .ok u → ∃ v, u = s.setResult v

theorem AnswersResult.result {s : State} (v : Nat) : AnswersResult s (.ok (s.setResult v)) := by
  rintro _ ⟨⟩
  exact ⟨v, rfl⟩

theorem AnswersResult.bind {α : Type} {s : State} {x : Check α} {f : α → Check State}
    (h : ∀ a, AnswersResult s (f a)) : AnswersResult s (x >>= f) := by
  intro u hu
  obtain ⟨a, -, hf⟩ := check_bind_eq_ok.mp hu
  exact h a u hf

theorem exec_query {i : Instr} (hi : i.isQuery = true) (s : State) :
    ∃ r, exec i s = finish s r ∧ AnswersResult s r := by
  cases i with
  | mrd | mbsize => exact ⟨_, rfl, .bind fun _ => .bind fun _ => .result _⟩
  | mctx | mbrd => exact ⟨_, rfl, .bind fun _ => .bind fun _ => .bind fun _ => .result _⟩
  | _ => cases hi

/-! ### A complete matrix -/

/-- A square matrix is its cells. -/
theorem squareGrid_ext {n : Nat} {g g' : Grid} (h : squareGrid n g) (h' : squareGrid n g')
    (hcells : ∀ r c, r < n → c < n → cellAt g r c = cellAt g' r c) : g = g' := by
  refine List.ext_getElem (h.1.trans h'.1.symm) fun r hr hr' => ?_
  have hrow := h.2 _ (List.getElem_mem hr)
  have hrow' := h'.2 _ (List.getElem_mem hr')
  refine List.ext_getElem (hrow.trans hrow'.symm) fun c hc hc' => ?_
  have hcell := hcells r c (h.1 ▸ hr) (hrow ▸ hc)
  rwa [cellAt, cellAt, List.getD_eq_getElem _ _ hr, List.getD_eq_getElem _ _ hr', List.getD_eq_getElem _ _ hc,
    List.getD_eq_getElem _ _ hc'] at hcell

section
variable {n : Nat} {g : Grid} (h : squareGrid n g) (hset : ∀ r c, r < n → c < n → (cellAt g r c).isUnset = false)
include h hset

/-- R241: `Set` leaves a cell that is set. -/
theorem placeAll_of_set (ps : List Placement) : placeAll g ps = g := by
  refine squareGrid_ext (squareGrid_placeAll ps h) h fun r c hr hc => ?_
  rw [cellAt_placeAll h hr hc, Cell.orElse_of_set (hset r c hr hc)]

theorem placeFormat_of_set (size w : Nat) : placeFormat size g w = g :=
  placeAll_of_set h hset _

theorem placeVersion_of_set (size w : Nat) : placeVersion size g w = g :=
  placeAll_of_set h hset _

theorem placeDark_of_set (size : Nat) (x : Cell) : placeDark size g x = g :=
  placeAll_of_set h hset [⟨size - 8, 8, x⟩]

/-- R262: with no UNSET cell the walk of the data step is empty. -/
theorem placeData_of_set (hodd : n % 2 = 1) (h7 : 7 ≤ n) (m : Fin 8) (cw : List Byte) : placeData n m cw g = g := by
  refine squareGrid_ext (squareGrid_placeData n m cw h) h fun r c hr hc => ?_
  refine cellAt_placeData_of_notMem hodd h7 h m cw fun hmem => ?_
  exact Cell.isUnset_eq_false_iff.mp (hset r c hr hc) ((mem_zigzag hodd h7).mp hmem).2

end

theorem State.mvalid_of_complete {s : State} (h : s.complete = true) : s.mvalid = true :=
  (Bool.and_eq_true_iff.mp h).1

theorem mat_eq_of_next {o : Host.Outcome State Fault Refusal} {t u : State} (ht : o = .next t) (hu : o = .next u) :
    t.mat = u.mat :=
  congrArg State.mat (Host.Outcome.next.inj (ht.symm.trans hu))

/-- The fill steps find nothing to fill in a complete matrix. -/
theorem exec_fill_complete {i : Instr} {s t : State} (hshape : s.matrixShape) (hc : s.complete = true)
    (hi : i.fillsCells = true) (ht : exec i s = .next t) : t.mat = s.mat := by
  have hm := State.mvalid_of_complete hc
  obtain ⟨-, -, hsize, hsquare⟩ := hshape.of_valid hm
  rw [sideOf] at hsize
  have hset := ((complete_iff hsquare).mp hc).2
  cases i with
  | mfmt tst mask lvl => simpa only [placeFormat_of_set hsquare hset] using mat_eq_of_next ht (exec_mfmt hm tst mask lvl)
  | mveri tst =>
    obtain ⟨w, hw⟩ := exec_mveri hm tst
    simpa only [placeVersion_of_set hsquare hset, ite_self] using mat_eq_of_next ht hw
  | mdark tst => simpa only [placeDark_of_set hsquare hset] using mat_eq_of_next ht (exec_mdark hm tst)
  | mdata mask =>
    have hnothing := placeData_of_set hsquare hset (by omega) (by omega) mask s.cw
    simpa only [hnothing] using mat_eq_of_next ht (exec_mdata hm mask)
  | _ => cases hi

/-- Settles O23: a query answers RESULT alone, and a command that starts no matrix has the cells outside its frame
(`exec_frames`) or fills a matrix that has nothing to fill. -/
theorem completeMatrixIsOnlyReplaced : Obligations.CompleteMatrixIsOnlyReplaced := by
  unfold Obligations.CompleteMatrixIsOnlyReplaced
  refine ⟨fun i s t w hi hw ht => ?_, fun i s t hshape hc hi ht => ?_⟩
  · obtain ⟨r, hr, hresult⟩ := exec_query hi s
    obtain ⟨u, hu, rfl⟩ | ⟨c, -, rfl⟩ := finish_cases (hr.symm.trans ht)
    · obtain ⟨v, rfl⟩ := hresult u hu
      exact .inl ⟨zext32 v, rfl⟩
    · exact .inr ⟨c, State.faulted_eq_afterFault hw c⟩
  · have hframe := exec_frames i s t ht
    have hmat : t.mat = s.mat := by
      cases hfill : i.fillsCells with
      | true => exact exec_fill_complete hshape hc hfill ht
      | false => exact hframe.cells hi hfill
    refine ⟨hmat, ?_⟩
    rw [State.complete, (hframe.matrix hi).1, hmat]
    exact hc

/-! ### What the queries answer -/

theorem State.requireComplete_bind {α : Type} {s : State} (h : s.complete = true) (f : Unit → Check α) :
    (s.requireComplete >>= f) = f () := by
  rw [State.requireComplete, h, require_true, check_ok_bind]

theorem requireInside_bind {α : Type} {row col side : Nat} (hr : row < side) (hc : col < side) (f : Unit → Check α) :
    (requireInside row col side >>= f) = f () := by
  rw [requireInside, decide_eq_true hr, decide_eq_true hc, Bool.and_self, require_true, check_ok_bind]

section
variable {s : State} {r c : Nat} (hm : s.mvalid = true)
include hm

theorem exec_mrd (hr : r < s.size) (hc : c < s.size) : exec (.mrd r c) s = .next { s with
    result := BitVec.ofNat 32 (cellAt s.mat r c).code, pending := none, started := none, done := true } :=
  finish_result ((State.requireMatrix_bind hm _).trans (requireInside_bind hr hc _))

variable (hcomplete : s.complete = true)
include hcomplete

theorem exec_mctx (hr : r < s.size) (hc : c < s.size) : exec (.mctx r c) s = .next { s with
    result := BitVec.ofNat 32 (ctx s.size s.mat r c), pending := none, started := none, done := true } :=
  finish_result ((State.requireMatrix_bind hm _).trans ((State.requireComplete_bind hcomplete _).trans
    (requireInside_bind hr hc _)))

theorem exec_mbrd (hr : r < s.borderedSide) (hc : c < s.borderedSide) : exec (.mbrd r c) s = .next { s with
    result := BitVec.ofNat 32 (s.bordered r c), pending := none, started := none, done := true } :=
  finish_result ((State.requireMatrix_bind hm _).trans ((State.requireComplete_bind hcomplete _).trans
    (requireInside_bind hr hc _)))

theorem exec_mbsize : exec .mbsize s = .next { s with
    result := BitVec.ofNat 32 s.borderedSide, pending := none, started := none, done := true } :=
  finish_result ((State.requireMatrix_bind hm _).trans (State.requireComplete_bind hcomplete _))

end

theorem Cell.isDark_iff {x : Cell} : x.isDark = true ↔ x = .dark := by
  rw [Cell.isDark_eq_beq, beq_iff_eq]

/-- R322: the neighbour with row offset `i - 1` and column offset `j - 1`; one outside the matrix is not DARK. -/
theorem darkAt_neighbour_iff (size : Nat) (g : Grid) (r c i j : Nat) :
    darkAt size g (r + i - 1) (c + j - 1) = true ↔
      1 ≤ r + i ∧ r + i ≤ size ∧ 1 ≤ c + j ∧ c + j ≤ size ∧ cellAt g (r + i - 1) (c + j - 1) = .dark := by
  have hrow : ((r : Int) + i - 1).toNat = r + i - 1 := by omega
  have hcol : ((c : Int) + j - 1).toNat = c + j - 1 := by omega
  simp only [darkAt, hrow, hcol, Bool.and_eq_true, decide_eq_true_eq, Cell.isDark_iff, and_assoc]
  exact and_congr (by omega) (and_congr (by omega) (and_congr (by omega) (and_congr (by omega) Iff.rfl)))

theorem bit_eq_toNat (b : Bool) : bit b = b.toNat := by
  cases b <;> rfl

theorem ofBits_nine (f : Fin 9 → Bool) : Nat.ofBits f =
    bit (f 0) + bit (f 1) * 2 ^ 1 + bit (f 2) * 2 ^ 2 + bit (f 3) * 2 ^ 3 + bit (f 4) * 2 ^ 4 + bit (f 5) * 2 ^ 5 +
    bit (f 6) * 2 ^ 6 + bit (f 7) * 2 ^ 7 + bit (f 8) * 2 ^ 8 := by
  simp only [Nat.ofBits_succ, Nat.ofBits_zero, Function.comp_apply, bit_eq_toNat, Fin.reduceSucc, Fin.isValue,
    Fin.succ_zero_eq_one, Fin.succ_one_eq_two]
  omega

/-- R322: the nine neighbours in reading order are the digits of the neighbourhood word. -/
theorem ctx_eq_ofBits (size : Nat) (g : Grid) (r c : Nat) : ctx size g r c =
    Nat.ofBits fun k : Fin 9 => darkAt size g (r + (k.val / 3 : Nat) - 1) (c + (k.val % 3 : Nat) - 1) := by
  have hnext (x : Int) : x + 2 - 1 = x + 1 := by omega
  simp [ofBits_nine, ctx, hnext]

theorem ctx_lt (size : Nat) (g : Grid) (r c : Nat) : ctx size g r c < 512 := by
  rw [ctx_eq_ofBits]
  exact Nat.ofBits_lt_two_pow _

theorem testBit_ctx (size : Nat) (g : Grid) (r c : Nat) {i j : Nat} (hi : i < 3) (hj : j < 3) :
    (ctx size g r c).testBit (3 * i + j) = darkAt size g (r + i - 1) (c + j - 1) := by
  have hrow : (3 * i + j) / 3 = i := by omega
  have hcol : (3 * i + j) % 3 = j := by omega
  rw [ctx_eq_ofBits, Nat.testBit_ofBits_lt _ _ (by omega), hrow, hcol]

theorem ofNat_bit_decide (p : Prop) [Decidable p] : (BitVec.ofNat 32 (bit (decide p)) : Word) = if p then 1 else 0 := by
  by_cases hp : p <;> simp [bit, hp]

/-- R326: the colour of a bordered cell, LIGHT in the frame. -/
theorem State.bordered_eq (s : State) (r c : Nat) {b : Nat} (hb : b = s.borderRead.toNat) :
    s.bordered r c = bit (decide
      (b ≤ r ∧ r < s.size + b ∧ b ≤ c ∧ c < s.size + b ∧ cellAt s.mat (r - b) (c - b) = .dark)) := by
  subst hb
  simp only [State.bordered, Bool.decide_and, Cell.isDark_eq_beq, beq_eq_decide, Bool.and_assoc]

/-- Settles O59: each query completes with its number (`exec_mrd`, `exec_mctx`, `exec_mbrd`, `exec_mbsize`), which is the
cell, the neighbourhood (`testBit_ctx`), the bordered cell (`State.bordered_eq`) or the side. -/
theorem queriesReturnCells : Obligations.QueriesReturnCells := by
  unfold Obligations.QueriesReturnCells
  intro s hm
  refine ⟨fun r c hr hc => ?_, fun hcomplete => ⟨fun r c hr hc => ?_, fun r c b hb hr hc => ?_, ?_⟩⟩
  · rw [exec_mrd hm hr hc]
    cases cellAt s.mat r c <;> rfl
  · refine ⟨_, fun i j hi hj => ?_, ?_, exec_mctx hm hcomplete hr hc⟩
    · rw [BitVec.getLsbD_ofNat, decide_eq_true (by omega), Bool.true_and, testBit_ctx _ _ _ _ hi hj,
        darkAt_neighbour_iff]
    · exact Nat.lt_of_le_of_lt (Nat.mod_le _ _) (ctx_lt _ _ _ _)
  · have hside : s.borderedSide = s.size + 2 * b := by rw [hb]; rfl
    rw [exec_mbrd hm hcomplete (hside ▸ hr) (hside ▸ hc), s.bordered_eq r c hb, ofNat_bit_decide]
  · exact exec_mbsize hm hcomplete

end Sys2Proof.Machine
end

section
/-! PROOFS. Exceptions and resets (60_exceptions.md R340 to R350, 70_reset_and_hazards.md R380 to R382): no step stops the
machine, what a command that does not fault leaves alone, the reset input, a reset and a completion in either order, and the
matrix checks in their order. -/

namespace Sys2Proof.Machine

/-! ### The engine's turn answers and leaves the surroundings alone -/

theorem engineTurn_held {s : State} (h : s.resetLine = true) : engineTurn s = .next s := by
  rw [engineTurn, h, if_pos rfl]

theorem engineTurn_answers (s : State) : ∃ t, engineTurn s = .next t := by
  cases hr : s.resetLine with
  | true => exact ⟨s, engineTurn_held hr⟩
  | false =>
    cases hp : s.pending with
    | none => exact ⟨s, engineTurn_idle hp⟩
    | some w => exact (executeWord_answers w s).imp fun _ ht => (engineTurn_ready ⟨hr, hp⟩).trans ht

/-- A command neither reads nor writes the surroundings, and ILLEGAL does not either. -/
theorem executeWord_surrounded {w : Word} {s t : State} (h : executeWord w s = .next t) (rest : List Input) (d : Word) :
    executeWord w (s.surrounded rest d) = .next (t.surrounded rest d) := by
  obtain ⟨⟨e, he⟩, rfl⟩ | ⟨i, hi, hexec⟩ := executeWord_cases h
  · exact executeWord_error he _
  · exact (executeWord_ok hi _).trans (exec_surrounded i s t hexec)

/-- An execution leaves the build, the reset input and the surroundings as they are. -/
theorem executeWord_keeps {w : Word} {s t : State} (h : executeWord w s = .next t) :
    t.cfg = s.cfg ∧ t.resetLine = s.resetLine ∧ t.busData = s.busData ∧ t.inputs = s.inputs := by
  have hsame : t = t.surrounded s.inputs s.busData :=
    Host.Outcome.next.inj (h.symm.trans (executeWord_surrounded h s.inputs s.busData))
  have hblock : t.cfg = s.cfg ∧ t.resetLine = s.resetLine := by
    obtain ⟨-, rfl⟩ | ⟨i, -, hexec⟩ := executeWord_cases h
    · exact ⟨rfl, rfl⟩
    · obtain ⟨-, hline, hcfg⟩ := exec_frame hexec
      exact ⟨hcfg, hline⟩
  obtain ⟨hcfg, hline⟩ := hblock
  exact ⟨hcfg, hline, (congrArg State.busData hsame).trans rfl, (congrArg State.inputs hsame).trans rfl⟩

theorem engineTurn_keeps {s t : State} (h : engineTurn s = .next t) :
    t.cfg = s.cfg ∧ t.resetLine = s.resetLine ∧ t.busData = s.busData ∧ t.inputs = s.inputs := by
  obtain rfl | ⟨w, -, hw⟩ := engineTurn_cases h
  · exact ⟨rfl, rfl, rfl, rfl⟩
  · exact executeWord_keeps hw

/-- Settles O7: every event answers, the engine's turn by `engineTurn_answers`, and with no event left the engine moves. -/
theorem stepNeverStops : Obligations.StepNeverStops := by
  unfold Obligations.StepNeverStops
  intro s
  cases hin : s.inputs with
  | nil => rw [step_engineNext (.inl ⟨hin, rfl⟩)]; exact engineTurn_answers _
  | cons e rest =>
    cases e with
    | access a => exact ⟨_, step_access hin⟩
    | start => exact ⟨_, step_start hin⟩
    | engine => rw [step_engine hin]; exact engineTurn_answers _
    | resetPin b => exact ⟨_, step_resetPin hin⟩

/-! ### What a command that does not fault leaves alone -/

/-- The effect of a command is no fault report, and it touches neither OVR, CTRL nor the surroundings. -/
theorem Effect.host {s u : State} (h : Effect s u) :
    u.err = s.err ∧ u.errcode = s.errcode ∧ u.errcmd = s.errcmd ∧ u.ovr = s.ovr ∧ u.ie = s.ie ∧ u.border = s.border ∧
    u.busData = s.busData ∧ u.inputs = s.inputs := by
  induction h with
  | nothing => exact ⟨rfl, rfl, rfl, rfl, rfl, rfl, rfl, rfl⟩
  | result _ _ ih | poly _ _ _ ih | codewords _ _ ih | matrix _ _ _ ih | cells _ _ ih | penalties _ _ ih => exact ih

/-- Settles O21: a command completes with a fault, which is its report, or with an effect, which is no report. -/
theorem faultChangesOnlyItsReport : Obligations.FaultChangesOnlyItsReport := by
  unfold Obligations.FaultChangesOnlyItsReport
  intro i s t w hp ht
  obtain ⟨c, hfault⟩ | ⟨u, e, hdone⟩ := exec_completes i s
  · cases ht.symm.trans hfault
    exact .inl ⟨c, State.faulted_eq_afterFault hp c⟩
  · cases ht.symm.trans hdone
    obtain ⟨herr, herrcode, herrcmd, hovr, hie, hborder, hdata, hinputs⟩ := e.host
    exact .inr ⟨herr, herrcode, herrcmd, rfl, rfl, rfl, hovr, hie, hborder, e.cfg, e.resetLine, hdata, hinputs⟩

/-! ### The reset input -/

theorem State.driveReset_resets {s : State} {b : Bool} (h : b = true ∨ s.resetLine = true) :
    s.driveReset b = { s.cleared with resetLine := b } :=
  if_pos (Bool.or_eq_true_iff.mpr h)

theorem State.legalOffset_held {s : State} (h : s.resetLine = true) (addr width : Nat) :
    s.legalOffset addr width = none := by
  simp [State.legalOffset, h]

theorem State.start_held {s : State} (h : s.resetLine = true) : s.start = s := by
  simp [State.start, h]

/-- Settles O13: the line resets the block at its assertion and its release, and while it is asserted no access is legal
and neither the start nor the engine's turn does anything. -/
theorem hardwareResetHoldsTheBlock : Obligations.HardwareResetHoldsTheBlock := by
  unfold Obligations.HardwareResetHoldsTheBlock
  refine ⟨fun s b rest hin hb => ?_, fun s rest hr => ?_⟩
  · exact (step_resetPin hin).trans (congrArg _ (State.driveReset_resets (s := { s with inputs := rest }) hb))
  · have hheld : State.resetLine { s with inputs := rest } = true := hr
    refine ⟨fun addr width hin => ?_, fun addr width w hin => ?_, fun hnext => ?_, fun hin => ?_⟩
    · rw [step_access hin, State.hostAccess_read_refused (State.legalOffset_held hheld addr width)]
    · rw [step_access hin, State.hostAccess_write_refused w (State.legalOffset_held hheld addr width)]
    · exact (step_engineNext hnext).trans (engineTurn_held hheld)
    · rw [step_start hin, State.start_held hheld]

/-! ### A reset and a completion -/

theorem run_one (s : State) : Host.Core.run core 1 s = step s := by
  obtain ⟨t, ht⟩ := stepNeverStops s
  rw [ht]
  exact run_succ ht 0

theorem run_two {s t : State} (h : step s = .next t) : Host.Core.run core 2 s = step t :=
  (run_succ h 1).trans (run_one t)

/-- A register write before an event leaves the event to the state that it makes. -/
theorem run_write_first {s : State} {off : Nat} (hr : s.resetLine = false) (hlt : off < 64) (hal : off % 4 = 0) (w : Word)
    (rest : List Input) :
    Host.Core.run core 2 { s with inputs := .access (.write (s.cfg.base + off) 32 w) :: rest } =
      step (State.writeRegister { s with inputs := rest } off w) :=
  run_two (step_legalWrite (s := { s with inputs := .access (.write (s.cfg.base + off) 32 w) :: rest }) hr hlt hal rfl)

/-- The soft reset while the reset input is released (R381). -/
theorem State.writeCtrl_softReset_released {s : State} (hr : s.resetLine = false) {w : Word} (hw : w.getLsbD 1 = true) :
    s.writeCtrl w = { State.resetWith s.cfg with busData := s.busData, inputs := s.inputs } := by
  rw [s.writeCtrl_softReset w hw, State.cleared, hr]
  rfl

/-- The engine's turn takes its event and leaves the build, the reset input and the surroundings as they are. -/
theorem step_engine_keeps {s : State} {rest : List Input} (h : s.inputs = .engine :: rest) :
    ∃ t, step s = .next t ∧ t.cfg = s.cfg ∧ t.resetLine = s.resetLine ∧ t.busData = s.busData ∧ t.inputs = rest := by
  obtain ⟨t, ht⟩ := engineTurn_answers { s with inputs := rest }
  exact ⟨t, (step_engine h).trans ht, engineTurn_keeps ht⟩

/-- Settles O24: the engine's turn keeps what a reset keeps, so a reset after it gives the reset state, and after a reset the
engine is held or has nothing pending. -/
theorem resetWinsOverCompletion : Obligations.ResetWinsOverCompletion := by
  unfold Obligations.ResetWinsOverCompletion
  refine ⟨fun s rest => ⟨?_, ?_⟩, fun s w rest hr hw => ⟨?_, ?_⟩⟩
  · obtain ⟨t, ht, hcfg, -, hdata, hinputs⟩ :=
      step_engine_keeps (s := { s with inputs := .engine :: .resetPin true :: rest }) rfl
    rw [run_two ht, step_resetPin hinputs, State.driveReset_resets (.inl rfl)]
    simp only [State.cleared, hcfg, hdata]
    rfl
  · rw [run_two (step_resetPin rfl), State.driveReset_resets (.inl rfl)]
    exact (step_engine rfl).trans (engineTurn_held rfl)
  · obtain ⟨t, ht, hcfg, hline, hdata, hinputs⟩ :=
      step_engine_keeps (s := { s with inputs := .engine :: .access (.write (s.cfg.base + 0x0C) 32 w) :: rest }) rfl
    have hreleased : t.resetLine = false := hline.trans hr
    rw [run_two ht, step_ctrlWrite hreleased (hcfg ▸ hinputs),
      State.writeCtrl_softReset_released (s := { t with inputs := rest }) hreleased hw, hcfg, hdata]
    rfl
  · have hreset : State.writeCtrl { s with inputs := .engine :: rest } w =
        { State.resetWith s.cfg with busData := s.busData, inputs := .engine :: rest } :=
      State.writeCtrl_softReset_released (s := { s with inputs := .engine :: rest }) hr hw
    exact (run_write_first hr (by decide) (by decide) w _).trans ((congrArg step hreset).trans
      ((step_engine rfl).trans (engineTurn_idle rfl)))

/-! ### The order of the checks of the matrix commands -/

theorem requireVersion_bind_error {α : Type} {v : Nat} (h : v = 0 ∨ 40 < v) (f : Unit → Check α) :
    (requireVersion v >>= f) = .error .badVersion := by
  rw [requireVersion, ← Bool.decide_and]
  exact require_bind_error (by omega) _ _

theorem State.requireMatrix_bind_error {α : Type} {s : State} (h : s.mvalid = false) (f : Unit → Check α) :
    (s.requireMatrix >>= f) = .error .noMatrix := by
  rw [State.requireMatrix, h, require_false, check_error_bind]

theorem State.requireComplete_bind_error {α : Type} {s : State} (h : s.complete = false) (f : Unit → Check α) :
    (s.requireComplete >>= f) = .error .incomplete := by
  rw [State.requireComplete, h, require_false, check_error_bind]

theorem requireInside_bind_error {α : Type} {row col side : Nat} (h : side ≤ row ∨ side ≤ col) (f : Unit → Check α) :
    (requireInside row col side >>= f) = .error .range := by
  rw [requireInside, ← Bool.decide_and]
  exact require_bind_error (by omega) _ _

/-- Every matrix command that is no starter checks first that there is a matrix (R341). -/
theorem exec_requireMatrix {i : Instr} (hi : i.fillsCells = true ∨ i.isQuery = true ∨ i = .mpen) (s : State) :
    ∃ f : Unit → Check State, exec i s = finish s (s.requireMatrix >>= f) := by
  cases i with
  | mfmt | mveri | mdark | mdata | mpen | mrd | mctx | mbrd | mbsize => exact ⟨_, rfl⟩
  | _ => obtain h | h | h := hi <;> cases h

/-- Settles O60: the first check of a command that fails is its fault, in the order of R341. -/
theorem matrixChecksFault : Obligations.MatrixChecksFault := by
  unfold Obligations.MatrixChecksFault
  intro s w hp
  refine ⟨fun v hv => ?_, fun hm i hi => ?_, fun hm hc => ?_, fun hm => ⟨fun r c h => ?_, fun hc => ⟨?_, ?_⟩⟩⟩
  · have hfault : ∀ f : Unit → Check State, finish s (requireVersion v >>= f) = .next (s.afterFault w 3) :=
      fun f => finish_fault hp (requireVersion_bind_error hv f)
    exact ⟨hfault _, fun _ _ _ => hfault _, fun _ => ⟨hfault _, hfault _⟩⟩
  · obtain ⟨f, hf⟩ := exec_requireMatrix hi s
    exact hf.trans (finish_fault hp (State.requireMatrix_bind_error hm f))
  · have hfault : ∀ f : Unit → Check State,
        finish s (s.requireMatrix >>= fun _ => s.requireComplete >>= f) = .next (s.afterFault w 5) := fun f =>
      finish_fault (c := .incomplete) hp ((State.requireMatrix_bind hm _).trans (State.requireComplete_bind_error hc f))
    exact ⟨hfault _, hfault _, fun _ _ => ⟨hfault _, hfault _⟩⟩
  · refine finish_fault (c := .range) hp ?_
    rw [State.requireMatrix_bind hm, requireInside_bind_error h]
  · intro r c h
    refine finish_fault (c := .range) hp ?_
    rw [State.requireMatrix_bind hm, State.requireComplete_bind hc, requireInside_bind_error h]
  · rintro r c b rfl h
    refine finish_fault (c := .range) hp ?_
    rw [State.requireMatrix_bind hm, State.requireComplete_bind hc, requireInside_bind_error (side := s.borderedSide) h]

end Sys2Proof.Machine
end

section
/-! PROOFS. The orders of a host write and a completion (60_exceptions.md R350, 70_reset_and_hazards.md R392): a command reads
the BORDER of its start and none of the other registers that the host can write, so it does the same beside any of them. -/

namespace Sys2Proof.Machine

/-! ### A command and the host's registers -/

/-- `s` with the STATUS flags DONE and OVR, CTRL, and the record of the start, as `h` has them: all that the host can change
of a pending command's surroundings by its writes, but for the fault report. -/
def State.hosted (s h : State) : State :=
  { s with done := h.done, ovr := h.ovr, ie := h.ie, border := h.border, started := h.started }

/-- The second computation is the first one beside the registers of `h`. -/
def SameHosted (h : State) (r r' : Check State) : Prop :=
  r' = r.map (State.hosted · h)

section
variable {h s : State}

theorem SameHosted.ok (u : State) : SameHosted h (.ok u) (.ok (u.hosted h)) := rfl

theorem SameHosted.cells (u : State) (g : Grid) (v : Nat) :
    SameHosted h (.ok ((u.setMat g).setResult v)) (.ok (((u.hosted h).setMat g).setResult v)) := rfl

theorem SameHosted.scoredMatrix (u : State) (ver : Nat) (g : Grid) (q : Score) (v : Nat) :
    SameHosted h (.ok (((u.startMatrix ver g).setScore q).setResult v))
      (.ok ((((u.hosted h).startMatrix ver g).setScore q).setResult v)) := rfl

theorem SameHosted.bind {α : Type} {x : Check α} {f f' : α → Check State} (hf : ∀ a, SameHosted h (f a) (f' a)) :
    SameHosted h (x >>= f) (x >>= f') := by
  cases x with
  | error c => rfl
  | ok a => exact hf a

/-- A completion overwrites DONE and the record of the start, and keeps the other registers of `h`. -/
theorem SameHosted.finish {r r' : Check State} (hr : SameHosted h r r') (t : State) (ht : finish s r = .next t) :
    finish (s.hosted h) r' = .next (t.hosted h.completed) := by
  cases hr
  obtain ⟨u, rfl, rfl⟩ | ⟨c, rfl, rfl⟩ := finish_cases ht <;> rfl

theorem State.hosted_cfg : (s.hosted h).cfg = s.cfg := rfl

theorem State.hosted_cw : (s.hosted h).cw = s.cw := rfl

theorem State.hosted_borderedSide (hb : h.borderRead = s.borderRead) : (s.hosted h).borderedSide = s.borderedSide :=
  congrArg (fun b : BitVec 8 => s.size + 2 * b.toNat) hb

theorem State.hosted_bordered (hb : h.borderRead = s.borderRead) (r c : Nat) : (s.hosted h).bordered r c = s.bordered r c := by
  have hb' : (s.hosted h).borderRead = s.borderRead := hb
  simp only [State.bordered, hb']
  rfl

/-- Of the registers that the host can write, a command reads CTRL.BORDER alone, the one that it read at its start
(R141). The cases go by the number of checks and computations that the command makes, then by what it writes. -/
theorem exec_hosted (hb : h.borderRead = s.borderRead) {i : Instr} (t : State) (ht : exec i s = .next t) :
    exec i (s.hosted h) = .next (t.hosted h.completed) := by
  revert t
  cases i with
  | nop | cclr | gexp | clen => exact SameHosted.finish (s := s) (.ok _)
  | pclr | glog | gmul | plen | crd | cpush | mskel | mbuild => exact SameHosted.finish (.bind fun _ => .ok _)
  | prd | mrd | ppush | pgen | cpushp | mpen => exact SameHosted.finish (.bind fun _ => .bind fun _ => .ok _)
  | mctx | pnorm | rsec => exact SameHosted.finish (.bind fun _ => .bind fun _ => .bind fun _ => .ok _)
  | pmul | pmod =>
    exact SameHosted.finish (.bind fun _ => .bind fun _ => .bind fun _ => .bind fun _ => .bind fun _ =>
      .bind fun _ => .ok _)
  | mbsize =>
    refine SameHosted.finish (.bind fun _ => .bind fun _ => ?_)
    rw [State.hosted_borderedSide hb]
    exact .ok _
  | mbrd =>
    refine SameHosted.finish (.bind fun _ => .bind fun _ => ?_)
    rw [State.hosted_borderedSide hb, State.hosted_bordered hb]
    exact .bind fun _ => .ok _
  | mfmt | mdark | mdata =>
    refine SameHosted.finish (.bind fun _ => ?_)
    exact .cells _ _ _
  | msel | mauto =>
    refine SameHosted.finish (.bind fun _ => ?_)
    rw [State.hosted_cfg, State.hosted_cw]
    exact .scoredMatrix _ _ _ _ _
  | mveri =>
    refine SameHosted.finish (.bind fun _ => ?_)
    change SameHosted h (if s.ver < 7 then _ else _) (if s.ver < 7 then _ else _)
    split <;> exact .ok _

end

theorem executeWord_hosted {h s t : State} {w : Word} (hb : h.borderRead = s.borderRead)
    (ht : executeWord w s = .next t) : executeWord w (s.hosted h) = .next (t.hosted h.completed) := by
  obtain ⟨⟨e, he⟩, rfl⟩ | ⟨i, hi, hexec⟩ := executeWord_cases ht
  · exact executeWord_error he _
  · exact (executeWord_ok hi _).trans (exec_hosted hb t hexec)

/-! ### The engine's turn with a command pending -/

theorem step_engine_ready {s : State} {v : Word} (hready : s.ready v) (rest : List Input) :
    step { s with inputs := .engine :: rest } = executeWord v { s with inputs := rest } :=
  (step_engine rfl).trans (engineTurn_ready (s := { s with inputs := rest }) hready)

section
variable {s t : State} {v : Word} {rest : List Input} (hready : s.ready v)
  (hturn : step { s with inputs := .engine :: rest } = .next t)
include hready hturn

/-- The completion beside other registers of the host, with the BORDER that the command uses the same. -/
theorem step_engine_hosted {h : State} (hb : h.borderRead = s.borderRead) :
    step { s.hosted h with inputs := .engine :: rest } = .next (t.hosted h.completed) := by
  rw [step_engine_ready hready] at hturn
  exact (step_engine_ready (s := s.hosted h) hready rest).trans
    (executeWord_hosted (s := { s with inputs := rest }) hb hturn)

/-- The completion sets DONE, ends the execution, and leaves OVR and CTRL as they were. -/
theorem step_engine_registers : t = t.hosted s.completed :=
  Host.Outcome.next.inj (hturn.symm.trans (step_engine_hosted (h := s) hready hturn rfl))

theorem step_engine_surroundings :
    t.pending = none ∧ t.cfg = s.cfg ∧ t.resetLine = false ∧ t.busData = s.busData ∧ t.inputs = rest := by
  rw [step_engine_ready hready] at hturn
  obtain ⟨hpending, -⟩ := executeWord_frame hturn
  obtain ⟨hcfg, hline, hdata, hinputs⟩ := executeWord_keeps hturn
  exact ⟨hpending, hcfg, hline.trans hready.1, hdata, hinputs⟩

/-- The completion does not depend on the events after it. -/
theorem step_engine_events (rest' : List Input) :
    step { s with inputs := .engine :: rest' } = .next { t with inputs := rest' } := by
  obtain ⟨-, -, -, hdata, -⟩ := step_engine_surroundings hready hturn
  have hsame : t.surrounded rest' s.busData = { t with inputs := rest' } := by rw [State.surrounded, ← hdata]
  rw [step_engine_ready hready] at hturn ⊢
  exact hsame ▸ executeWord_surrounded hturn rest' s.busData

/-- A register write after the completion acts on what the completion leaves. -/
theorem run_engine_write {off : Nat} (hlt : off < 64) (hal : off % 4 = 0) (w : Word) :
    Host.Core.run core 2 { s with inputs := .engine :: .access (.write (s.cfg.base + off) 32 w) :: rest } =
      .next (t.writeRegister off w) := by
  obtain ⟨-, hcfg, hline, -, hinputs⟩ := step_engine_surroundings hready hturn
  have hsame : { t with inputs := rest } = t := by rw [← hinputs]
  rw [run_two (step_engine_events hready hturn _), ← hcfg,
    step_legalWrite (s := { t with inputs := .access (.write (t.cfg.base + off) 32 w) :: rest }) hline hlt hal rfl]
  exact congrArg (fun u => Host.Outcome.next (State.writeRegister u off w)) hsame

end

theorem State.writeStatus_two (s : State) : s.writeStatus 2 = { s with done := false } := by
  rw [State.writeStatus_eq]
  rfl

/-- The state after a pending command started and CTRL was then written: the record of the start holds the BORDER from
before the write (R392). -/
def State.ctrlAfterStart (s : State) (w : Word) : State :=
  { s with started := some s.borderRead, ie := w.getLsbD 0, border := w.extractLsb' 8 8 }

theorem run_start_ctrlWrite {s : State} {v w : Word} (hready : s.ready v) (hw : w.getLsbD 1 = false) (rest : List Input) :
    Host.Core.run core 2 { s with inputs := .start :: .access (.write (s.cfg.base + 0x0C) 32 w) :: rest } =
      .next { s.ctrlAfterStart w with inputs := rest } := by
  have hstart := (step_start (s := { s with inputs := .start :: .access (.write (s.cfg.base + 0x0C) 32 w) :: rest })
    rfl).trans (congrArg _ (State.start_ready hready))
  have hctrl := step_ctrlWrite (s := { s with
    started := some s.borderRead, inputs := .access (.write (s.cfg.base + 0x0C) 32 w) :: rest }) hready.1 rfl
  exact (run_two hstart).trans (hctrl.trans (congrArg _ (State.writeCtrl_plain _ w hw)))

/-! ### A host write and a completion -/

section
variable {s t : State} {v : Word} {rest : List Input} (hready : s.ready v)
  (hturn : step { s with inputs := .engine :: rest } = .next t)
include hready hturn

/-- A CMD write is dropped before the completion and accepted after it (R140, R350). -/
theorem cmdWrite_races (w : Word) :
    Host.Core.run core 2 { s with inputs := .access (.write s.cfg.base 32 w) :: .engine :: rest } =
      .next { t with ovr := true } ∧
    Host.Core.run core 2 { s with inputs := .engine :: .access (.write s.cfg.base 32 w) :: rest } =
      .next { t with pending := some w, done := false } := by
  have hregs := step_engine_registers hready hturn
  obtain ⟨hpending, -⟩ := step_engine_surroundings hready hturn
  constructor
  · have hdropped : State.issue { s with inputs := .engine :: rest } w =
        { s.hosted { s with ovr := true } with inputs := .engine :: rest } := State.issue_busy _ v w hready.2
    refine (run_write_first (off := 0x00) hready.1 (by decide) (by decide) w _).trans ?_
    calc step (State.issue { s with inputs := .engine :: rest } w)
      _ = .next (t.hosted (State.completed { s with ovr := true })) :=
        (congrArg step hdropped).trans (step_engine_hosted hready hturn rfl)
      _ = .next { t with ovr := true } :=
        congrArg (fun u : State => Host.Outcome.next { u with ovr := true }) hregs.symm
  · have hstarted : t.started = none := (congrArg State.started hregs).trans rfl
    have haccepted : t.issue w = { t with pending := some w, done := false } := by
      rw [State.issue_idle t w hpending, ← hstarted]
    exact (run_engine_write (off := 0x00) hready hturn (by decide) (by decide) w).trans (congrArg _ haccepted)

/-- A STATUS write that clears DONE does so only after the completion sets it (R350). -/
theorem statusWrite_races {w : Word} (hw : w.getLsbD 1 = true) : ∃ t1 t2 : State,
    Host.Core.run core 2 { s with inputs := .access (.write (s.cfg.base + 0x04) 32 w) :: .engine :: rest } = .next t1 ∧
    t1.done = true ∧ t1.irq = s.ie ∧
    Host.Core.run core 2 { s with inputs := .engine :: .access (.write (s.cfg.base + 0x04) 32 w) :: rest } = .next t2 ∧
    t2.done = false ∧ t2.irq = false := by
  obtain ⟨t1, ht1⟩ := stepNeverStops { s.writeStatus w with inputs := .engine :: rest }
  have hregs : t1 = t1.hosted (s.writeStatus w).completed := step_engine_registers (v := v) hready ht1
  have hdone : t1.done = true := (congrArg State.done hregs).trans rfl
  have hie : t1.ie = s.ie := (congrArg State.ie hregs).trans rfl
  have hcleared : (t.writeStatus w).done = false := by rw [State.writeStatus_done, hw, Bool.not_true, Bool.and_false]
  refine ⟨t1, t.writeStatus w, ?_, hdone, ?_, ?_, hcleared, State.irq_of_not_done hcleared⟩
  · exact (run_write_first hready.1 (by decide) (by decide) w _).trans ht1
  · rw [State.irq, hdone, hie, Bool.and_true]
  · exact run_engine_write hready hturn (by decide) (by decide) w

/-- Where the write clears nothing else, it leaves no trace before the completion, and DONE clear after it. -/
theorem statusWrite_two_races :
    Host.Core.run core 2 { s with inputs := .access (.write (s.cfg.base + 0x04) 32 2) :: .engine :: rest } = .next t ∧
    Host.Core.run core 2 { s with inputs := .engine :: .access (.write (s.cfg.base + 0x04) 32 2) :: rest } =
      .next { t with done := false } := by
  constructor
  · calc _ = step (State.writeStatus { s with inputs := .engine :: rest } 2) :=
        run_write_first hready.1 (by decide) (by decide) 2 _
      _ = step { s.hosted { s with done := false } with inputs := .engine :: rest } :=
        congrArg step (State.writeStatus_two { s with inputs := .engine :: rest })
      _ = .next (t.hosted (State.completed { s with done := false })) := step_engine_hosted hready hturn rfl
      _ = .next t := congrArg _ (step_engine_registers hready hturn).symm
  · exact (run_engine_write hready hturn (by decide) (by decide) 2).trans (congrArg _ t.writeStatus_two)

section
variable {w : Word} (hw : w.getLsbD 1 = false)
include hw

theorem ctrlWrite_after_completion :
    Host.Core.run core 2 { s with inputs := .engine :: .access (.write (s.cfg.base + 0x0C) 32 w) :: rest } =
      .next { t with ie := w.getLsbD 0, border := w.extractLsb' 8 8 } :=
  (run_engine_write hready hturn (by decide) (by decide) w).trans (congrArg _ (t.writeCtrl_plain w hw))

/-- The command that has started uses the BORDER it has read, and is still pending after the CTRL write (R392). -/
theorem ctrlWrite_after_start : ∃ u,
    Host.Core.run core 2 { s with inputs := .start :: .access (.write (s.cfg.base + 0x0C) 32 w) :: .engine :: rest } =
      .next u ∧
    u.statusWord.getLsbD 0 = true ∧ u.border = w.extractLsb' 8 8 ∧
    step u = .next { t with ie := w.getLsbD 0, border := w.extractLsb' 8 8 } := by
  obtain ⟨hbusy, -⟩ := State.statusWord_fields { s.ctrlAfterStart w with inputs := .engine :: rest }
  refine ⟨_, run_start_ctrlWrite hready hw _, hbusy.trans (congrArg Option.isSome hready.2), rfl, ?_⟩
  calc step { s.hosted (s.ctrlAfterStart w) with inputs := .engine :: rest }
    _ = .next (t.hosted (s.ctrlAfterStart w).completed) := step_engine_hosted hready hturn rfl
    _ = .next { t with ie := w.getLsbD 0, border := w.extractLsb' 8 8 } :=
      congrArg (fun u : State => Host.Outcome.next { u with ie := w.getLsbD 0, border := w.extractLsb' 8 8 })
        (step_engine_registers hready hturn).symm

end

end

/-- A command that has not started reads the BORDER that the CTRL write leaves (R392). -/
theorem ctrlWrite_before_start {s : State} {w : Word} (hr : s.resetLine = false) (hw : w.getLsbD 1 = false)
    (rest : List Input) :
    Host.Core.run core 2 { s with inputs := .access (.write (s.cfg.base + 0x0C) 32 w) :: .engine :: rest } =
      step { s with inputs := .engine :: rest, ie := w.getLsbD 0, border := w.extractLsb' 8 8 } :=
  (run_write_first hr (by decide) (by decide) w _).trans
    (congrArg step (State.writeCtrl_plain { s with inputs := .engine :: rest } w hw))

/-- Settles O25: each kind of write in each order against the completion. -/
theorem hostWriteRacesCompletion : Obligations.HostWriteRacesCompletion := by
  unfold Obligations.HostWriteRacesCompletion
  intro s t v rest hready hturn
  obtain ⟨hkept, hcleared⟩ := statusWrite_two_races hready hturn
  refine ⟨cmdWrite_races hready hturn, fun w hw => statusWrite_races hready hturn hw, hkept, hcleared, ?_⟩
  rintro w _ hw rfl
  exact ⟨ctrlWrite_after_completion hready hturn hw, ctrlWrite_after_start hready hturn hw,
    fun _ => ctrlWrite_before_start hready.1 hw rest⟩

end Sys2Proof.Machine
end
